-- ==== Sys2Proof/Word.lean ====
section
/-! DEFINITION. Word types of the LapRF codec block: the widths of `spec/00_scope.md` rule R13.
Every integer of the protocol is unsigned; a byte is 8 bits, bit 0 the least significant. -/

namespace Sys2Proof

/-- A byte of the stream, of a frame or of a value (R13). -/
abbrev Byte := BitVec 8

/-- `u16`: record-type codes, CRC digests, CRC table entries (R13). -/
abbrev U16 := BitVec 16

/-- `f32bits`: a single-precision pattern, stored and never computed on (R17, R42). -/
abbrev U32 := BitVec 32

/-- `u64`: every integer register of the Device Model (R42). -/
abbrev U64 := BitVec 64

end Sys2Proof
end

