-- ==== Sys2Proof/Config.lean ====
section
/-! DEFINITION. Constants the source fixes (`spec/00_scope.md` rule R11) and the parameters it leaves
open (rule R12). A model takes the open parameters as arguments: they are the record `Params`, which
`State` holds, and the values the machine has at reset are constants without a body, so nothing can
be proved that depends on one choice of them (notes/assumptions 5, 6, 7). -/

namespace Sys2Proof

/-- Frame start marker `START` (R11). -/
abbrev START : Byte := 0x5A#8
/-- Frame end marker `END` (R11). -/
abbrev END : Byte := 0x5B#8
/-- Escape prefix `ESC` (R11). -/
abbrev ESC : Byte := 0x5C#8
/-- `ESC_OFFSET`, added when escaping and subtracted when unescaping (R11). -/
abbrev ESC_OFFSET : Byte := 0x40#8
/-- `HDR_LEN`, bytes of frame header removed before the TLV walk (R11). -/
abbrev HDR_LEN : Nat := 7
/-- `MIN_FRAME`, least length of an unescaped frame that is not dropped (R11). -/
abbrev MIN_FRAME : Nat := 8
/-- `TLV_STOP`: the TLV walk goes on while more than this many bytes remain (R11). -/
abbrev TLV_STOP : Nat := 3
/-- `CRC_POLY`, the generator polynomial with x^16 implied (R11). -/
abbrev CRC_POLY : U16 := 0x8005#16
/-- `CRC_TABLE_SIZE` (R11). -/
abbrev CRC_TABLE_SIZE : Nat := 256
/-- `CRC_INIT`, derived in R153. -/
abbrev CRC_INIT : U16 := 0x0000#16
/-- `CRC_SELFTEST`, expected digest of the self-test vector (R11). -/
abbrev CRC_SELFTEST : U16 := 0x1B53#16
/-- `MV_PER_VOLT`, divisor of the battery field (R11). -/
abbrev MV_PER_VOLT : Nat := 1000
/-- Largest length of an unescaped frame that `BuildRaw` accepts (R295). -/
abbrev MAX_RAW_FRAME : Nat := 65535

/-- The coarse device operating modes (R18, R46). -/
inductive Gate where
  | idle
  | active
  | crashed
  | shutdown
deriving DecidableEq, Repr

/-- `GATE_CODE`: the wire byte of each gate state (R12). It must be injective (R252): `GateCodes.wf`. -/
structure GateCodes where
  idle : Byte
  active : Byte
  crashed : Byte
  shutdown : Byte
deriving DecidableEq, Repr

/-- The wire byte of a gate state. -/
def GateCodes.code (c : GateCodes) : Gate → Byte
  | .idle => c.idle
  | .active => c.active
  | .crashed => c.crashed
  | .shutdown => c.shutdown

/-- The map is injective (R12, R252). -/
def GateCodes.wf (c : GateCodes) : Bool :=
  c.idle != c.active && c.idle != c.crashed && c.idle != c.shutdown &&
  c.active != c.crashed && c.active != c.shutdown && c.crashed != c.shutdown

/-- The registers the host may read by name between operations (R53). -/
inductive HostReg where
  | rfEnabled (slot : Nat)
  | rfChannel (slot : Nat)
  | rfBand (slot : Nat)
  | rfThreshold (slot : Nat)
  | rfGain (slot : Nat)
  | rfFreq (slot : Nat)
  | rssiMin (slot : Nat)
  | rssiMax (slot : Nat)
  | rssiMean (slot : Nat)
  | rssiLast (slot : Nat)
  | passing
  | gateState
  | gateRaw
  | battMv
  | detectCount
  | minLapTime
  | statusFlags
  | rtcTime
  | rtcLocalSeconds
  | rtcReqAt
  | timeRtcTime
  | evq
  | logq
  | fault
  | eng
deriving DecidableEq, Repr

/-- The parameters the source leaves to the implementation (R12). -/
structure Params where
  /-- `MAX_SLOTS`, a natural number; the source names 8 and 16. -/
  maxSlots : Nat
  /-- `BUF_CAP`; `none` is infinity. -/
  bufCap : Option Nat
  /-- `GATE_CODE`. -/
  gateCode : GateCodes
  /-- `RTC_TICKS_PER_SECOND`, a positive rational. -/
  rtcTicksPerSecond : Rat
  /-- `ENABLE_BINARY_BYTES`, the raw ASCII command of R300; outside the receive path. -/
  enableBinaryBytes : List Byte
  /-- `REG_MAP`, the addresses an implementer assigns to the registers; no rule depends on one (R95). -/
  regMap : List (HostReg × Nat)
deriving DecidableEq, Repr

/-- What R12 asks of the parameters: an injective gate map and a positive clock rate. -/
def Params.wf (p : Params) : Bool :=
  p.gateCode.wf && decide (0 < p.rtcTicksPerSecond)

/-- `MAX_SLOTS` at reset: open (R12). -/
opaque Config.maxSlots : Nat
/-- `BUF_CAP` at reset: open (R12). -/
opaque Config.bufCap : Option Nat
/-- Which injective map `GATE_CODE` is: open (R12). Four arbitrary numbers that `Config.gateCode` turns into distinct bytes. -/
opaque Config.gateChoice : Gate → Nat
/-- Numerator of `RTC_TICKS_PER_SECOND`, less one: open (R12). -/
opaque Config.rtcTicksNum : Nat
/-- Denominator of `RTC_TICKS_PER_SECOND`, less one: open (R12). -/
opaque Config.rtcTicksDen : Nat
/-- `ENABLE_BINARY_BYTES`: open (R12). -/
opaque Config.enableBinaryBytes : List Byte
/-- `REG_MAP`: open (R12, R95). -/
opaque Config.regMap : List (HostReg × Nat)

/-- The `k`-th byte value (cyclically) among those not yet used. -/
def Config.freshByte (used : List Byte) (k : Nat) : Byte :=
  let free := ((List.range 256).map (BitVec.ofNat 8)).filter fun b => !used.contains b
  free.getD (k % free.length) 0

/-- The map that four arbitrary numbers select: each state gets one of the bytes the earlier states
left over, so the map is injective, and every injective map is selected by some numbers. -/
def Config.gateCodesOf (choice : Gate → Nat) : GateCodes :=
  let a := Config.freshByte [] (choice .idle)
  let b := Config.freshByte [a] (choice .active)
  let c := Config.freshByte [a, b] (choice .crashed)
  let d := Config.freshByte [a, b, c] (choice .shutdown)
  ⟨a, b, c, d⟩

/-- `GATE_CODE` at reset. -/
def Config.gateCode : GateCodes := Config.gateCodesOf Config.gateChoice

/-- The parameters of the machine at reset: an arbitrary choice of the open values. -/
def Config.params : Params where
  maxSlots := Config.maxSlots
  bufCap := Config.bufCap
  gateCode := Config.gateCode
  rtcTicksPerSecond := ((Config.rtcTicksNum + 1 : Nat) : Rat) / ((Config.rtcTicksDen + 1 : Nat) : Rat)
  enableBinaryBytes := Config.enableBinaryBytes
  regMap := Config.regMap

end Sys2Proof
end

