-- ==== Sys2Proof/Syntax.lean ====
section
/-! DEFINITION. The instruction set: the LapRF wire protocol (`spec/00_scope.md` rule R2), one constructor
per row of `spec/opcode_table.json`. Four levels (`spec/30_encoding.md` rule R110): stream bytes, the
escape pair, frames by record type, TLV fields by (record type, tag). A field carries its value bytes;
its length byte L is the number of them. -/

namespace Sys2Proof

/-- The nine recognised record types (R212). -/
inductive RecordType where
  | rssi
  | rfsetup
  | statectl
  | settings
  | desc
  | passing
  | status
  | time
  | error
deriving DecidableEq, Repr

/-- One instruction: a stream byte, an escape pair, a frame, or a TLV field. -/
inductive Instr where
  -- level 1: stream bytes as the extractor sees them (R111, R194 to R197)
  | byteStart
  | byteEnd
  | byteEsc
  | byteData (b : Byte)
  -- level 1a: the escape pair inside a candidate frame (R112, R171)
  | escPair (x : Byte)
  -- level 2: frames by record type (R121, R124)
  | rssi
  | rfsetup
  | statectl
  | settings
  | desc
  | passing
  | status
  | time
  | error
  | frameUnknown (rtype : U16)
  -- level 3: TLV fields (R122)
  | rssiSlot (val : List Byte)
  | rssiMin (val : List Byte)
  | rssiMax (val : List Byte)
  | rssiMean (val : List Byte)
  | rssiX23 (val : List Byte)
  | rssiX26 (val : List Byte)
  | rfsetupSlot (val : List Byte)
  | rfsetupEnabled (val : List Byte)
  | rfsetupChannel (val : List Byte)
  | rfsetupBand (val : List Byte)
  | rfsetupThreshold (val : List Byte)
  | rfsetupGain (val : List Byte)
  | rfsetupFreq (val : List Byte)
  | statectlGate (val : List Byte)
  | settingsStatusint (val : List Byte)
  | settingsMinlap (val : List Byte)
  | passingSlot (val : List Byte)
  | passingRtc (val : List Byte)
  | passingDecoder (val : List Byte)
  | passingNumber (val : List Byte)
  | passingPeak (val : List Byte)
  | passingFlags (val : List Byte)
  | statusSlot (val : List Byte)
  | statusFlags (val : List Byte)
  | statusBatt (val : List Byte)
  | statusLastrssi (val : List Byte)
  | statusGate (val : List Byte)
  | statusDetect (val : List Byte)
  | timeRtc (val : List Byte)
  | timeTrt (val : List Byte)
  | descAny (tag : Byte) (val : List Byte)
  | errorAny (tag : Byte) (val : List Byte)
  | rssiUnknown (tag : Byte) (val : List Byte)
  | rfsetupUnknown (tag : Byte) (val : List Byte)
  | statectlUnknown (tag : Byte) (val : List Byte)
  | settingsUnknown (tag : Byte) (val : List Byte)
  | passingUnknown (tag : Byte) (val : List Byte)
  | statusUnknown (tag : Byte) (val : List Byte)
  | timeUnknown (tag : Byte) (val : List Byte)
deriving DecidableEq, Repr

end Sys2Proof
end

