-- ==== Sys2Proof/WellFormed.lean ====
section
/-! DEFINITION. Which instructions have an encoding: a default row stands only for what no other row of
its level matches (`spec/30_encoding.md` rule R123), and a field's value has at most 255 bytes, since its
length is one byte (rules R110, R115). -/

namespace Sys2Proof

/-- The three reserved byte values (R170). -/
def reservedBytes : List Byte := [START, END, ESC]

/-- The nine recognised record-type codes (R121, R212). -/
def recognisedCodes : List U16 :=
  [0xDA01#16, 0xDA02#16, 0xDA04#16, 0xDA07#16, 0xDA08#16, 0xDA09#16, 0xDA0A#16, 0xDA0C#16, 0xFFFF#16]

/-- The tags that have a row of their own in a record (R122). -/
def listedTags : RecordType → List Byte
  | .rssi => [0x01#8, 0x20#8, 0x21#8, 0x22#8, 0x23#8, 0x26#8]
  | .rfsetup => [0x01#8, 0x20#8, 0x21#8, 0x22#8, 0x23#8, 0x24#8, 0x25#8]
  | .statectl => [0x20#8]
  | .settings => [0x22#8, 0x26#8]
  | .desc => []
  | .passing => [0x01#8, 0x02#8, 0x20#8, 0x21#8, 0x22#8, 0x23#8]
  | .status => [0x01#8, 0x03#8, 0x21#8, 0x22#8, 0x23#8, 0x24#8]
  | .time => [0x02#8, 0x20#8]
  | .error => []

/-- A value fits its one-byte length (R115). -/
def valueFits (val : List Byte) : Bool := val.length ≤ 255

/-- A default field row: the tag has no row of its own. -/
def unlisted (r : RecordType) (tag : Byte) (val : List Byte) : Bool :=
  !(listedTags r).contains tag && valueFits val

/-- The instruction has an encoding. -/
def Instr.wf : Instr → Bool
  | .byteStart => true
  | .byteEnd => true
  | .byteEsc => true
  | .byteData b => !reservedBytes.contains b
  | .escPair _ => true
  | .rssi => true
  | .rfsetup => true
  | .statectl => true
  | .settings => true
  | .desc => true
  | .passing => true
  | .status => true
  | .time => true
  | .error => true
  | .frameUnknown rtype => !recognisedCodes.contains rtype
  | .rssiSlot val => valueFits val
  | .rssiMin val => valueFits val
  | .rssiMax val => valueFits val
  | .rssiMean val => valueFits val
  | .rssiX23 val => valueFits val
  | .rssiX26 val => valueFits val
  | .rfsetupSlot val => valueFits val
  | .rfsetupEnabled val => valueFits val
  | .rfsetupChannel val => valueFits val
  | .rfsetupBand val => valueFits val
  | .rfsetupThreshold val => valueFits val
  | .rfsetupGain val => valueFits val
  | .rfsetupFreq val => valueFits val
  | .statectlGate val => valueFits val
  | .settingsStatusint val => valueFits val
  | .settingsMinlap val => valueFits val
  | .passingSlot val => valueFits val
  | .passingRtc val => valueFits val
  | .passingDecoder val => valueFits val
  | .passingNumber val => valueFits val
  | .passingPeak val => valueFits val
  | .passingFlags val => valueFits val
  | .statusSlot val => valueFits val
  | .statusFlags val => valueFits val
  | .statusBatt val => valueFits val
  | .statusLastrssi val => valueFits val
  | .statusGate val => valueFits val
  | .statusDetect val => valueFits val
  | .timeRtc val => valueFits val
  | .timeTrt val => valueFits val
  | .descAny _ val => valueFits val
  | .errorAny _ val => valueFits val
  | .rssiUnknown tag val => unlisted .rssi tag val
  | .rfsetupUnknown tag val => unlisted .rfsetup tag val
  | .statectlUnknown tag val => unlisted .statectl tag val
  | .settingsUnknown tag val => unlisted .settings tag val
  | .passingUnknown tag val => unlisted .passing tag val
  | .statusUnknown tag val => unlisted .status tag val
  | .timeUnknown tag val => unlisted .time tag val

end Sys2Proof
end

