-- ==== Sys2Proof/Decode.lean ====
section
/-! DEFINITION. The decoder and the encoder of the four levels (`spec/30_encoding.md`). The decoder is total
on any bytes and rejects by name; it answers the instruction and the bytes after it. The encoder is written
from the same tables (R111, R112, R115, R121, R122). Beside them stand the opcode table's rows as match and
mask over the dispatch word of rule R123, so that the decoder can be held against the table. -/

namespace Sys2Proof

/-- What is being decoded: a stream byte, an escape pair, a frame by the two bytes of its record type, or a
TLV field of a frame whose record type is known (R110). -/
inductive Level where
  | stream
  | escape
  | frame
  | field (rtype : U16)
deriving DecidableEq, Repr

/-- Why bytes decode to no instruction. -/
inductive DecodeError where
  /-- no byte, or one byte where two are needed. -/
  | tooShort
  /-- level 1a: the first byte is not ESC; `Unescape` copies it (R171). -/
  | notEscapePair
  /-- level 3: the declared length exceeds the bytes that remain (R216). -/
  | truncatedField (tag : Byte)
  /-- level 3: the record type is none of the nine, so it has no fields (R212, R218). -/
  | unrecognisedRecord (rtype : U16)
deriving DecidableEq, Repr

/-- `u16le` of two bytes: the least significant comes first (R15, R86). -/
def u16le (lo hi : Byte) : U16 := hi ++ lo

/-- The record-type code (R121). -/
def RecordType.code : RecordType → U16
  | .rssi => 0xDA01#16
  | .rfsetup => 0xDA02#16
  | .statectl => 0xDA04#16
  | .settings => 0xDA07#16
  | .desc => 0xDA08#16
  | .passing => 0xDA09#16
  | .status => 0xDA0A#16
  | .time => 0xDA0C#16
  | .error => 0xFFFF#16

/-- The record type of a code, matched exactly (R121, R212). -/
def RecordType.ofCode (code : U16) : Option RecordType :=
  if code = 0xDA01#16 then some .rssi
  else if code = 0xDA02#16 then some .rfsetup
  else if code = 0xDA04#16 then some .statectl
  else if code = 0xDA07#16 then some .settings
  else if code = 0xDA08#16 then some .desc
  else if code = 0xDA09#16 then some .passing
  else if code = 0xDA0A#16 then some .status
  else if code = 0xDA0C#16 then some .time
  else if code = 0xFFFF#16 then some .error
  else none

/-- The class of a stream byte (R111). -/
def streamInstr (b : Byte) : Instr :=
  if b = START then .byteStart
  else if b = END then .byteEnd
  else if b = ESC then .byteEsc
  else .byteData b

/-- The frame instruction of a record type (R121). -/
def frameInstr : RecordType → Instr
  | .rssi => .rssi
  | .rfsetup => .rfsetup
  | .statectl => .statectl
  | .settings => .settings
  | .desc => .desc
  | .passing => .passing
  | .status => .status
  | .time => .time
  | .error => .error

/-- The frame instruction of a record-type code: one of the nine, or the default row (R121, R124). -/
def frameInstrOfCode (code : U16) : Instr :=
  match RecordType.ofCode code with
  | some r => frameInstr r
  | none => .frameUnknown code

/-- The field instruction of a tag in a record (R122); a tag without a row takes the record's default row (R123, R125). -/
def fieldInstr (r : RecordType) (tag : Byte) (val : List Byte) : Instr :=
  match r with
  | .rssi =>
    if tag = 0x01#8 then .rssiSlot val
    else if tag = 0x20#8 then .rssiMin val
    else if tag = 0x21#8 then .rssiMax val
    else if tag = 0x22#8 then .rssiMean val
    else if tag = 0x23#8 then .rssiX23 val
    else if tag = 0x26#8 then .rssiX26 val
    else .rssiUnknown tag val
  | .rfsetup =>
    if tag = 0x01#8 then .rfsetupSlot val
    else if tag = 0x20#8 then .rfsetupEnabled val
    else if tag = 0x21#8 then .rfsetupChannel val
    else if tag = 0x22#8 then .rfsetupBand val
    else if tag = 0x23#8 then .rfsetupThreshold val
    else if tag = 0x24#8 then .rfsetupGain val
    else if tag = 0x25#8 then .rfsetupFreq val
    else .rfsetupUnknown tag val
  | .statectl =>
    if tag = 0x20#8 then .statectlGate val
    else .statectlUnknown tag val
  | .settings =>
    if tag = 0x22#8 then .settingsStatusint val
    else if tag = 0x26#8 then .settingsMinlap val
    else .settingsUnknown tag val
  | .desc => .descAny tag val
  | .passing =>
    if tag = 0x01#8 then .passingSlot val
    else if tag = 0x02#8 then .passingRtc val
    else if tag = 0x20#8 then .passingDecoder val
    else if tag = 0x21#8 then .passingNumber val
    else if tag = 0x22#8 then .passingPeak val
    else if tag = 0x23#8 then .passingFlags val
    else .passingUnknown tag val
  | .status =>
    if tag = 0x01#8 then .statusSlot val
    else if tag = 0x03#8 then .statusFlags val
    else if tag = 0x21#8 then .statusBatt val
    else if tag = 0x22#8 then .statusLastrssi val
    else if tag = 0x23#8 then .statusGate val
    else if tag = 0x24#8 then .statusDetect val
    else .statusUnknown tag val
  | .time =>
    if tag = 0x02#8 then .timeRtc val
    else if tag = 0x20#8 then .timeTrt val
    else .timeUnknown tag val
  | .error => .errorAny tag val

/-- Decode one instruction from the front of the bytes: the instruction and the bytes after it. The
truncation check of a field comes before its tag is looked up (R216). -/
def decode (level : Level) (bytes : List Byte) : Except DecodeError (Instr × List Byte) :=
  match level with
  | .stream =>
    match bytes with
    | b :: rest => .ok (streamInstr b, rest)
    | [] => .error .tooShort
  | .escape =>
    match bytes with
    | b :: x :: rest => if b = ESC then .ok (.escPair x, rest) else .error .notEscapePair
    | _ => .error .tooShort
  | .frame =>
    match bytes with
    | lo :: hi :: rest => .ok (frameInstrOfCode (u16le lo hi), rest)
    | _ => .error .tooShort
  | .field rtype =>
    match bytes with
    | tag :: len :: rest =>
      if rest.length < len.toNat then .error (.truncatedField tag)
      else match RecordType.ofCode rtype with
        | some r => .ok (fieldInstr r tag (rest.take len.toNat), rest.drop len.toNat)
        | none => .error (.unrecognisedRecord rtype)
    | _ => .error .tooShort

/-- A field's record, tag and value; `none` for an instruction of another level. -/
def Instr.field : Instr → Option (RecordType × Byte × List Byte)
  | .byteStart => none
  | .byteEnd => none
  | .byteEsc => none
  | .byteData _ => none
  | .escPair _ => none
  | .rssi => none
  | .rfsetup => none
  | .statectl => none
  | .settings => none
  | .desc => none
  | .passing => none
  | .status => none
  | .time => none
  | .error => none
  | .frameUnknown _ => none
  | .rssiSlot val => some (.rssi, 0x01#8, val)
  | .rssiMin val => some (.rssi, 0x20#8, val)
  | .rssiMax val => some (.rssi, 0x21#8, val)
  | .rssiMean val => some (.rssi, 0x22#8, val)
  | .rssiX23 val => some (.rssi, 0x23#8, val)
  | .rssiX26 val => some (.rssi, 0x26#8, val)
  | .rfsetupSlot val => some (.rfsetup, 0x01#8, val)
  | .rfsetupEnabled val => some (.rfsetup, 0x20#8, val)
  | .rfsetupChannel val => some (.rfsetup, 0x21#8, val)
  | .rfsetupBand val => some (.rfsetup, 0x22#8, val)
  | .rfsetupThreshold val => some (.rfsetup, 0x23#8, val)
  | .rfsetupGain val => some (.rfsetup, 0x24#8, val)
  | .rfsetupFreq val => some (.rfsetup, 0x25#8, val)
  | .statectlGate val => some (.statectl, 0x20#8, val)
  | .settingsStatusint val => some (.settings, 0x22#8, val)
  | .settingsMinlap val => some (.settings, 0x26#8, val)
  | .passingSlot val => some (.passing, 0x01#8, val)
  | .passingRtc val => some (.passing, 0x02#8, val)
  | .passingDecoder val => some (.passing, 0x20#8, val)
  | .passingNumber val => some (.passing, 0x21#8, val)
  | .passingPeak val => some (.passing, 0x22#8, val)
  | .passingFlags val => some (.passing, 0x23#8, val)
  | .statusSlot val => some (.status, 0x01#8, val)
  | .statusFlags val => some (.status, 0x03#8, val)
  | .statusBatt val => some (.status, 0x21#8, val)
  | .statusLastrssi val => some (.status, 0x22#8, val)
  | .statusGate val => some (.status, 0x23#8, val)
  | .statusDetect val => some (.status, 0x24#8, val)
  | .timeRtc val => some (.time, 0x02#8, val)
  | .timeTrt val => some (.time, 0x20#8, val)
  | .descAny tag val => some (.desc, tag, val)
  | .errorAny tag val => some (.error, tag, val)
  | .rssiUnknown tag val => some (.rssi, tag, val)
  | .rfsetupUnknown tag val => some (.rfsetup, tag, val)
  | .statectlUnknown tag val => some (.statectl, tag, val)
  | .settingsUnknown tag val => some (.settings, tag, val)
  | .passingUnknown tag val => some (.passing, tag, val)
  | .statusUnknown tag val => some (.status, tag, val)
  | .timeUnknown tag val => some (.time, tag, val)

/-- The level an instruction belongs to (R110). -/
def Instr.level : Instr → Level
  | .byteStart => .stream
  | .byteEnd => .stream
  | .byteEsc => .stream
  | .byteData _ => .stream
  | .escPair _ => .escape
  | .rssi => .frame
  | .rfsetup => .frame
  | .statectl => .frame
  | .settings => .frame
  | .desc => .frame
  | .passing => .frame
  | .status => .frame
  | .time => .frame
  | .error => .frame
  | .frameUnknown _ => .frame
  | .rssiSlot _ => .field 0xDA01#16
  | .rssiMin _ => .field 0xDA01#16
  | .rssiMax _ => .field 0xDA01#16
  | .rssiMean _ => .field 0xDA01#16
  | .rssiX23 _ => .field 0xDA01#16
  | .rssiX26 _ => .field 0xDA01#16
  | .rfsetupSlot _ => .field 0xDA02#16
  | .rfsetupEnabled _ => .field 0xDA02#16
  | .rfsetupChannel _ => .field 0xDA02#16
  | .rfsetupBand _ => .field 0xDA02#16
  | .rfsetupThreshold _ => .field 0xDA02#16
  | .rfsetupGain _ => .field 0xDA02#16
  | .rfsetupFreq _ => .field 0xDA02#16
  | .statectlGate _ => .field 0xDA04#16
  | .settingsStatusint _ => .field 0xDA07#16
  | .settingsMinlap _ => .field 0xDA07#16
  | .passingSlot _ => .field 0xDA09#16
  | .passingRtc _ => .field 0xDA09#16
  | .passingDecoder _ => .field 0xDA09#16
  | .passingNumber _ => .field 0xDA09#16
  | .passingPeak _ => .field 0xDA09#16
  | .passingFlags _ => .field 0xDA09#16
  | .statusSlot _ => .field 0xDA0A#16
  | .statusFlags _ => .field 0xDA0A#16
  | .statusBatt _ => .field 0xDA0A#16
  | .statusLastrssi _ => .field 0xDA0A#16
  | .statusGate _ => .field 0xDA0A#16
  | .statusDetect _ => .field 0xDA0A#16
  | .timeRtc _ => .field 0xDA0C#16
  | .timeTrt _ => .field 0xDA0C#16
  | .descAny _ _ => .field 0xDA08#16
  | .errorAny _ _ => .field 0xFFFF#16
  | .rssiUnknown _ _ => .field 0xDA01#16
  | .rfsetupUnknown _ _ => .field 0xDA02#16
  | .statectlUnknown _ _ => .field 0xDA04#16
  | .settingsUnknown _ _ => .field 0xDA07#16
  | .passingUnknown _ _ => .field 0xDA09#16
  | .statusUnknown _ _ => .field 0xDA0A#16
  | .timeUnknown _ _ => .field 0xDA0C#16

/-- A TLV field's bytes: tag, length, value (R115). -/
def tlvBytes (tag : Byte) (val : List Byte) : List Byte := tag :: BitVec.ofNat 8 val.length :: val

/-- The two bytes of a record-type code, least significant first (R86, R121). -/
def codeBytes (code : U16) : List Byte := [code.extractLsb' 0 8, code.extractLsb' 8 8]

/-- The bytes of an instruction as the stream or the unescaped frame holds them. -/
def encode : Instr → List Byte
  | .byteStart => [0x5A#8]
  | .byteEnd => [0x5B#8]
  | .byteEsc => [0x5C#8]
  | .byteData b => [b]
  | .escPair x => [0x5C#8, x]
  | .rssi => [0x01#8, 0xDA#8]
  | .rfsetup => [0x02#8, 0xDA#8]
  | .statectl => [0x04#8, 0xDA#8]
  | .settings => [0x07#8, 0xDA#8]
  | .desc => [0x08#8, 0xDA#8]
  | .passing => [0x09#8, 0xDA#8]
  | .status => [0x0A#8, 0xDA#8]
  | .time => [0x0C#8, 0xDA#8]
  | .error => [0xFF#8, 0xFF#8]
  | .frameUnknown rtype => codeBytes rtype
  | .rssiSlot val => tlvBytes 0x01#8 val
  | .rssiMin val => tlvBytes 0x20#8 val
  | .rssiMax val => tlvBytes 0x21#8 val
  | .rssiMean val => tlvBytes 0x22#8 val
  | .rssiX23 val => tlvBytes 0x23#8 val
  | .rssiX26 val => tlvBytes 0x26#8 val
  | .rfsetupSlot val => tlvBytes 0x01#8 val
  | .rfsetupEnabled val => tlvBytes 0x20#8 val
  | .rfsetupChannel val => tlvBytes 0x21#8 val
  | .rfsetupBand val => tlvBytes 0x22#8 val
  | .rfsetupThreshold val => tlvBytes 0x23#8 val
  | .rfsetupGain val => tlvBytes 0x24#8 val
  | .rfsetupFreq val => tlvBytes 0x25#8 val
  | .statectlGate val => tlvBytes 0x20#8 val
  | .settingsStatusint val => tlvBytes 0x22#8 val
  | .settingsMinlap val => tlvBytes 0x26#8 val
  | .passingSlot val => tlvBytes 0x01#8 val
  | .passingRtc val => tlvBytes 0x02#8 val
  | .passingDecoder val => tlvBytes 0x20#8 val
  | .passingNumber val => tlvBytes 0x21#8 val
  | .passingPeak val => tlvBytes 0x22#8 val
  | .passingFlags val => tlvBytes 0x23#8 val
  | .statusSlot val => tlvBytes 0x01#8 val
  | .statusFlags val => tlvBytes 0x03#8 val
  | .statusBatt val => tlvBytes 0x21#8 val
  | .statusLastrssi val => tlvBytes 0x22#8 val
  | .statusGate val => tlvBytes 0x23#8 val
  | .statusDetect val => tlvBytes 0x24#8 val
  | .timeRtc val => tlvBytes 0x02#8 val
  | .timeTrt val => tlvBytes 0x20#8 val
  | .descAny tag val => tlvBytes tag val
  | .errorAny tag val => tlvBytes tag val
  | .rssiUnknown tag val => tlvBytes tag val
  | .rfsetupUnknown tag val => tlvBytes tag val
  | .statectlUnknown tag val => tlvBytes tag val
  | .settingsUnknown tag val => tlvBytes tag val
  | .passingUnknown tag val => tlvBytes tag val
  | .statusUnknown tag val => tlvBytes tag val
  | .timeUnknown tag val => tlvBytes tag val

/-- The instruction's mnemonic in the opcode table. -/
def Instr.mnemonic : Instr → String
  | .byteStart => "BYTE.START"
  | .byteEnd => "BYTE.END"
  | .byteEsc => "BYTE.ESC"
  | .byteData _ => "BYTE.DATA"
  | .escPair _ => "ESC.PAIR"
  | .rssi => "RSSI"
  | .rfsetup => "RFSETUP"
  | .statectl => "STATECTL"
  | .settings => "SETTINGS"
  | .desc => "DESC"
  | .passing => "PASSING"
  | .status => "STATUS"
  | .time => "TIME"
  | .error => "ERROR"
  | .frameUnknown _ => "FRAME.UNKNOWN"
  | .rssiSlot _ => "RSSI.SLOT"
  | .rssiMin _ => "RSSI.MIN"
  | .rssiMax _ => "RSSI.MAX"
  | .rssiMean _ => "RSSI.MEAN"
  | .rssiX23 _ => "RSSI.X23"
  | .rssiX26 _ => "RSSI.X26"
  | .rfsetupSlot _ => "RFSETUP.SLOT"
  | .rfsetupEnabled _ => "RFSETUP.ENABLED"
  | .rfsetupChannel _ => "RFSETUP.CHANNEL"
  | .rfsetupBand _ => "RFSETUP.BAND"
  | .rfsetupThreshold _ => "RFSETUP.THRESHOLD"
  | .rfsetupGain _ => "RFSETUP.GAIN"
  | .rfsetupFreq _ => "RFSETUP.FREQ"
  | .statectlGate _ => "STATECTL.GATE"
  | .settingsStatusint _ => "SETTINGS.STATUSINT"
  | .settingsMinlap _ => "SETTINGS.MINLAP"
  | .passingSlot _ => "PASSING.SLOT"
  | .passingRtc _ => "PASSING.RTC"
  | .passingDecoder _ => "PASSING.DECODER"
  | .passingNumber _ => "PASSING.NUMBER"
  | .passingPeak _ => "PASSING.PEAK"
  | .passingFlags _ => "PASSING.FLAGS"
  | .statusSlot _ => "STATUS.SLOT"
  | .statusFlags _ => "STATUS.FLAGS"
  | .statusBatt _ => "STATUS.BATT"
  | .statusLastrssi _ => "STATUS.LASTRSSI"
  | .statusGate _ => "STATUS.GATE"
  | .statusDetect _ => "STATUS.DETECT"
  | .timeRtc _ => "TIME.RTC"
  | .timeTrt _ => "TIME.TRT"
  | .descAny _ _ => "DESC.ANY"
  | .errorAny _ _ => "ERROR.ANY"
  | .rssiUnknown _ _ => "RSSI.UNKNOWN"
  | .rfsetupUnknown _ _ => "RFSETUP.UNKNOWN"
  | .statectlUnknown _ _ => "STATECTL.UNKNOWN"
  | .settingsUnknown _ _ => "SETTINGS.UNKNOWN"
  | .passingUnknown _ _ => "PASSING.UNKNOWN"
  | .statusUnknown _ _ => "STATUS.UNKNOWN"
  | .timeUnknown _ _ => "TIME.UNKNOWN"

/-- The format column of the opcode table: which dispatch word a row is matched against (R123). -/
inductive RowFormat where
  | byte
  | escpair
  | frame
  | tlv
deriving DecidableEq, Repr

/-- One row of the opcode table: it matches when `word &&& mask = pattern` (R123). -/
structure OpRow where
  mnemonic : String
  format : RowFormat
  pattern : Nat
  mask : Nat
deriving DecidableEq, Repr

/-- The rows of levels 1 and 1a. -/
def streamRows : List OpRow :=
  [⟨"BYTE.START", .byte, 0x5A, 0xFF⟩,
   ⟨"BYTE.END", .byte, 0x5B, 0xFF⟩,
   ⟨"BYTE.ESC", .byte, 0x5C, 0xFF⟩,
   ⟨"BYTE.DATA", .byte, 0x00, 0x00⟩,
   ⟨"ESC.PAIR", .escpair, 0x5C00, 0xFF00⟩]

/-- The rows of level 2. -/
def frameRows : List OpRow :=
  [⟨"RSSI", .frame, 0xDA01, 0xFFFF⟩,
   ⟨"RFSETUP", .frame, 0xDA02, 0xFFFF⟩,
   ⟨"STATECTL", .frame, 0xDA04, 0xFFFF⟩,
   ⟨"SETTINGS", .frame, 0xDA07, 0xFFFF⟩,
   ⟨"DESC", .frame, 0xDA08, 0xFFFF⟩,
   ⟨"PASSING", .frame, 0xDA09, 0xFFFF⟩,
   ⟨"STATUS", .frame, 0xDA0A, 0xFFFF⟩,
   ⟨"TIME", .frame, 0xDA0C, 0xFFFF⟩,
   ⟨"ERROR", .frame, 0xFFFF, 0xFFFF⟩,
   ⟨"FRAME.UNKNOWN", .frame, 0x0000, 0x0000⟩]

/-- The full-mask rows of level 3. -/
def fieldRows : List OpRow :=
  [⟨"RSSI.SLOT", .tlv, 0xDA0101, 0xFFFFFF⟩,
   ⟨"RSSI.MIN", .tlv, 0xDA0120, 0xFFFFFF⟩,
   ⟨"RSSI.MAX", .tlv, 0xDA0121, 0xFFFFFF⟩,
   ⟨"RSSI.MEAN", .tlv, 0xDA0122, 0xFFFFFF⟩,
   ⟨"RSSI.X23", .tlv, 0xDA0123, 0xFFFFFF⟩,
   ⟨"RSSI.X26", .tlv, 0xDA0126, 0xFFFFFF⟩,
   ⟨"RFSETUP.SLOT", .tlv, 0xDA0201, 0xFFFFFF⟩,
   ⟨"RFSETUP.ENABLED", .tlv, 0xDA0220, 0xFFFFFF⟩,
   ⟨"RFSETUP.CHANNEL", .tlv, 0xDA0221, 0xFFFFFF⟩,
   ⟨"RFSETUP.BAND", .tlv, 0xDA0222, 0xFFFFFF⟩,
   ⟨"RFSETUP.THRESHOLD", .tlv, 0xDA0223, 0xFFFFFF⟩,
   ⟨"RFSETUP.GAIN", .tlv, 0xDA0224, 0xFFFFFF⟩,
   ⟨"RFSETUP.FREQ", .tlv, 0xDA0225, 0xFFFFFF⟩,
   ⟨"STATECTL.GATE", .tlv, 0xDA0420, 0xFFFFFF⟩,
   ⟨"SETTINGS.STATUSINT", .tlv, 0xDA0722, 0xFFFFFF⟩,
   ⟨"SETTINGS.MINLAP", .tlv, 0xDA0726, 0xFFFFFF⟩,
   ⟨"PASSING.SLOT", .tlv, 0xDA0901, 0xFFFFFF⟩,
   ⟨"PASSING.RTC", .tlv, 0xDA0902, 0xFFFFFF⟩,
   ⟨"PASSING.DECODER", .tlv, 0xDA0920, 0xFFFFFF⟩,
   ⟨"PASSING.NUMBER", .tlv, 0xDA0921, 0xFFFFFF⟩,
   ⟨"PASSING.PEAK", .tlv, 0xDA0922, 0xFFFFFF⟩,
   ⟨"PASSING.FLAGS", .tlv, 0xDA0923, 0xFFFFFF⟩,
   ⟨"STATUS.SLOT", .tlv, 0xDA0A01, 0xFFFFFF⟩,
   ⟨"STATUS.FLAGS", .tlv, 0xDA0A03, 0xFFFFFF⟩,
   ⟨"STATUS.BATT", .tlv, 0xDA0A21, 0xFFFFFF⟩,
   ⟨"STATUS.LASTRSSI", .tlv, 0xDA0A22, 0xFFFFFF⟩,
   ⟨"STATUS.GATE", .tlv, 0xDA0A23, 0xFFFFFF⟩,
   ⟨"STATUS.DETECT", .tlv, 0xDA0A24, 0xFFFFFF⟩,
   ⟨"TIME.RTC", .tlv, 0xDA0C02, 0xFFFFFF⟩,
   ⟨"TIME.TRT", .tlv, 0xDA0C20, 0xFFFFFF⟩]

/-- The default rows of level 3. -/
def defaultFieldRows : List OpRow :=
  [⟨"DESC.ANY", .tlv, 0xDA0800, 0xFFFF00⟩,
   ⟨"ERROR.ANY", .tlv, 0xFFFF00, 0xFFFF00⟩,
   ⟨"RSSI.UNKNOWN", .tlv, 0xDA0100, 0xFFFF00⟩,
   ⟨"RFSETUP.UNKNOWN", .tlv, 0xDA0200, 0xFFFF00⟩,
   ⟨"STATECTL.UNKNOWN", .tlv, 0xDA0400, 0xFFFF00⟩,
   ⟨"SETTINGS.UNKNOWN", .tlv, 0xDA0700, 0xFFFF00⟩,
   ⟨"PASSING.UNKNOWN", .tlv, 0xDA0900, 0xFFFF00⟩,
   ⟨"STATUS.UNKNOWN", .tlv, 0xDA0A00, 0xFFFF00⟩,
   ⟨"TIME.UNKNOWN", .tlv, 0xDA0C00, 0xFFFF00⟩]

/-- The opcode table. -/
def opcodeTable : List OpRow := streamRows ++ frameRows ++ fieldRows ++ defaultFieldRows

/-- How many bits of a mask are set (masks have at most 24 bits). -/
def maskBits (mask : Nat) : Nat := (List.range 24).countP mask.testBit

/-- The row a dispatch word selects: of the rows of its format that match, the one with the most mask bits (R123). -/
def selectRow (format : RowFormat) (word : Nat) : Option OpRow :=
  (opcodeTable.filter fun row => row.format == format && (word &&& row.mask) == row.pattern).foldl
    (fun best row => match best with
      | none => some row
      | some b => if maskBits b.mask < maskBits row.mask then some row else some b)
    none

/-- The instruction the decoder reads from an opcode-table word of `nbits` bits, numbered as the table
numbers them (R123): a byte; a byte pair `byte0 * 256 + byte1` when its first byte is ESC, else a record
type; a record type and a tag, `RTYPE * 256 + tag`, with length byte 0 and no value. -/
def decodeTableWord (nbits w : Nat) : Option Instr :=
  let first (r : Except DecodeError (Instr × List Byte)) : Option Instr :=
    match r with
    | .ok (i, _) => some i
    | .error _ => none
  if w ≥ 2 ^ nbits then none
  else if nbits = 8 then first (decode .stream [BitVec.ofNat 8 w])
  else if nbits = 16 then
    if w / 256 = 0x5C then first (decode .escape [BitVec.ofNat 8 (w / 256), BitVec.ofNat 8 w])
    else first (decode .frame [BitVec.ofNat 8 w, BitVec.ofNat 8 (w / 256)])
  else if nbits = 24 then
    first (decode (.field (BitVec.ofNat 16 (w / 256))) [BitVec.ofNat 8 w, 0x00#8])
  else none

end Sys2Proof
end

