-- ==== Sys2Proof/Machine/Escape.lean ====
section
/-! DEFINITION. The escape layer as pure functions (`spec/41_escape.md`): `Unescape`, which the receive path
uses on every candidate frame, and its inverse `Escape`. -/

namespace Sys2Proof.Machine

/-- The byte an escape pair stands for: `(x - 0x40) mod 256`, whatever x is (R112, R172). -/
def unescapeByte (x : Byte) : Byte := x - ESC_OFFSET

/-- `Unescape(s)` (R171): an ESC consumes the byte after it, which is not itself examined (R172); a dangling
ESC yields nothing (R173); every other byte passes through. -/
def unescape : List Byte → List Byte
  | [] => []
  | [b] => if b = ESC then [] else [b]
  | b :: x :: rest => if b = ESC then unescapeByte x :: unescape rest else b :: unescape (x :: rest)

/-- A reserved byte (R170). -/
def isReserved (b : Byte) : Bool := b == START || b == END || b == ESC

/-- `esc(b)` (R174). -/
def escByte (b : Byte) : List Byte := if isReserved b then [ESC, b + ESC_OFFSET] else [b]

/-- The bytes after the first: all but the last are escaped (R174). -/
def escapeTail : List Byte → List Byte
  | [] => []
  | [b] => [b]
  | b :: c :: rest => escByte b ++ escapeTail (c :: rest)

/-- `Escape(X)` (R174): the first and the last byte are copied as they are. -/
def escape : List Byte → List Byte
  | [] => []
  | b :: rest => b :: escapeTail rest

end Sys2Proof.Machine
end

