-- ==== Sys2Proof/Machine/Crc.lean ====
section
/-! DEFINITION. The CRC-16/ARC generator (`spec/40_crc16.md`): the table construction, the digest by the
table (the normative form), the equal bit-serial form, and the self-test vector. -/

namespace Sys2Proof.Machine

/-- One round of the table construction: "shift left, XOR the polynomial if the top bit was set"; the bit
tested is bit 15 before the shift (R151, 90_conflicts C5). -/
def crcRound (r : U16) : U16 := if r.msb then (r <<< 1) ^^^ CRC_POLY else r <<< 1

/-- `CRCTAB[i]`: eight rounds on the index placed in the top byte (R151). -/
def crcTableEntry (i : Nat) : U16 := (List.range 8).foldl (fun r _ => crcRound r) (BitVec.ofNat 16 i <<< 8)

/-- The table of 256 entries (R151, R162). -/
def crcTable : List U16 := (List.range CRC_TABLE_SIZE).map crcTableEntry

/-- `rev8`: bit i of the result is bit 7 - i of the byte (R15). -/
def rev8 (b : Byte) : Byte := b.reverse

/-- `rev16`: bit i of the result is bit 15 - i of the word (R15). -/
def rev16 (w : U16) : U16 := w.reverse

/-- `CrcStep(r, b)` over the table `tab` (R152). -/
def crcStep (tab : List U16) (r : U16) (b : Byte) : U16 :=
  let idx := ((r >>> 8) ^^^ (rev8 b).zeroExtend 16) &&& 0x00FF#16
  (r <<< 8) ^^^ tab.getD idx.toNat 0

/-- The remainder after a byte sequence (R154, R160). -/
def crcFold (tab : List U16) (r : U16) (bytes : List Byte) : U16 := bytes.foldl (crcStep tab) r

/-- `Crc16(bytes)` over the table `tab` (R150, R154). -/
def crc16 (tab : List U16) (bytes : List Byte) : U16 := rev16 (crcFold tab CRC_INIT bytes)

/-- One round of the bit-serial form (R155). -/
def crcSerialRound (r : U16) : U16 := if r.getLsbD 0 then (r >>> 1) ^^^ 0xA001#16 else r >>> 1

/-- One byte of the bit-serial form: into the low byte, then eight rounds (R155). -/
def crcSerialStep (r : U16) (b : Byte) : U16 :=
  (List.range 8).foldl (fun r _ => crcSerialRound r) (r ^^^ b.zeroExtend 16)

/-- The bit-serial form of `Crc16` (R155). -/
def crcSerial (bytes : List Byte) : U16 := bytes.foldl crcSerialStep 0x0000#16

/-- The 61-byte self-test vector V: a Status frame with its CRC field zeroed (R156). -/
def selfTestVector : List Byte :=
  [0x5a, 0x3d, 0x00, 0x00, 0x00, 0x0a, 0xda, 0x21, 0x02, 0x3c, 0x0d, 0x23, 0x01, 0x01, 0x24, 0x04, 0x00, 0x00, 0x00, 0x00,
   0x01, 0x01, 0x01, 0x22, 0x04, 0x00, 0x80, 0x62, 0x44, 0x01, 0x01, 0x02, 0x22, 0x04, 0x00, 0x00, 0x62, 0x44, 0x01, 0x01,
   0x03, 0x22, 0x04, 0x00, 0x80, 0x6a, 0x44, 0x01, 0x01, 0x04, 0x22, 0x04, 0x00, 0x00, 0x62, 0x44, 0x03, 0x02, 0x00, 0x00,
   0x5b]

/-- The self-test over a table (R156, R157). -/
def selfTestPasses (tab : List U16) : Bool := crc16 tab selfTestVector == CRC_SELFTEST

end Sys2Proof.Machine
end

