-- ==== Sys2Proof/Machine/State.lean ====
section
/-! DEFINITION. The state of the block as plain data (`spec/10_state.md`): the CRC unit, the extractor, the
decoder's working state, the Device Model register file, the outputs and status; and the model's own fields:
the parameters, where inside a host operation the block is, and the host's side (operations not yet begun,
what finished operations returned). -/

namespace Sys2Proof.Machine

/-- Engine state `ENG` (R32). -/
inductive Eng where
  | uninit
  | ready
  | failed
deriving DecidableEq, Repr

/-- The sticky fault register `FAULT` (R58). -/
inductive FaultReg where
  | none
  | crcSelftestFail
  | bufOverflow
deriving DecidableEq, Repr

/-- The causes of drops, skips and fatal faults (R310). -/
inductive Cause where
  | tooShort
  | badStart
  | crcMismatch
  | unknownType
  | truncatedTlv
  | unknownTag
  | badWidth
  | noSlot
  | slotRange
  | crcSelftestFail
  | bufOverflow
deriving DecidableEq, Repr

/-- One entry of `LOGQ`: `(cause, rtype, tag)` (R57, R328). -/
structure LogEntry where
  cause : Cause
  rtype : Option U16
  tag : Option Byte
deriving DecidableEq, Repr

/-- The provisional passing-record builder `PB` (R40). -/
structure PassingBuilder where
  pilotId : Option Nat
  passingNumber : Option U64
  rtcTime : Option U64
  decoderId : Option U64
  peakHeight : Option U64
  flags : Option U64
deriving DecidableEq, Repr

/-- All fields `none`: at reset, at every frame start and after every commit (R40). -/
def PassingBuilder.empty : PassingBuilder := ⟨.none, .none, .none, .none, .none, .none⟩

/-- A committed passing record: the fields of `PB` at commit, and `localTime` in seconds (R45). -/
structure PassingRecord where
  pilotId : Option Nat
  passingNumber : Option U64
  rtcTime : Option U64
  decoderId : Option U64
  peakHeight : Option U64
  flags : Option U64
  localTime : Option Rat
deriving DecidableEq, Repr

/-- The outcome of one decoded frame: record type, 0-based slot, last committed record (R223). -/
structure FrameOutcome where
  rtype : U16
  slot : Option Nat
  record : Option PassingRecord
deriving DecidableEq, Repr

/-- What the host is told of an outcome (R224). -/
inductive Notification where
  | rssiUpdated (slot : Option Nat)
  | rfSetupRead (slot : Option Nat)
  | timeUpdated
  | settingsUpdated
  | passingRecordRead (record : PassingRecord)
  | statusUpdated
  | noOp
deriving DecidableEq, Repr

/-- A per-slot register file: the written slots with their values, slots strictly rising; an unlisted slot
holds `none` (R43, R44, R64). -/
abbrev SlotFile (α : Type) := List (Nat × α)

/-- The Device Model register file (R43 to R52). -/
structure DeviceModel where
  rfEnabled : SlotFile U64
  rfChannel : SlotFile U64
  rfBand : SlotFile U64
  rfThreshold : SlotFile U32
  rfGain : SlotFile U64
  rfFreq : SlotFile U64
  rssiMin : SlotFile U32
  rssiMax : SlotFile U32
  rssiMean : SlotFile U32
  rssiLast : SlotFile U32
  passing : List PassingRecord
  gateState : Option Gate
  gateRaw : Option U64
  battMv : Option U64
  detectCount : Option U64
  minLapTime : Option U64
  statusFlags : Option U64
  rtcTime : Option U64
  rtcLocalSeconds : Option Rat
  rtcReqAt : Option Rat
  timeRtcTime : Option U64
deriving DecidableEq, Repr

/-- Every register `none`, `PASSING` empty (R64). -/
def DeviceModel.empty : DeviceModel where
  rfEnabled := []
  rfChannel := []
  rfBand := []
  rfThreshold := []
  rfGain := []
  rfFreq := []
  rssiMin := []
  rssiMax := []
  rssiMean := []
  rssiLast := []
  passing := []
  gateState := .none
  gateRaw := .none
  battMv := .none
  detectCount := .none
  minLapTime := .none
  statusFlags := .none
  rtcTime := .none
  rtcLocalSeconds := .none
  rtcReqAt := .none
  timeRtcTime := .none

/-- The decoder's working state, which lives for one frame (R35, R37 to R41): the candidate `frm`, the part
`fcur` of it that `Unescape` has not read, the unescaped frame `u`, the rest `p` of the payload, the record
type, the current slot, the passing builder and the record last committed in this frame. -/
structure Work where
  frm : List Byte
  fcur : List Byte
  u : List Byte
  p : List Byte
  rtype : U16
  curslot : Option Nat
  pb : PassingBuilder
  lastrec : Option PassingRecord
deriving DecidableEq, Repr

/-- No frame in progress. -/
def Work.empty : Work := ⟨[], [], [], [], 0x0000#16, .none, PassingBuilder.empty, .none⟩

/-- Where inside a host operation the block is (the model's own field). -/
inductive Phase where
  /-- between host operations. -/
  | idle
  /-- the extractor takes the next byte of the chunk (R192). -/
  | scan
  /-- `Unescape` reads the candidate (R206). -/
  | unescape
  /-- length, START, CRC and record type are judged (R207 to R211). -/
  | check
  /-- the TLV walk (R213 to R218). -/
  | walk
deriving DecidableEq, Repr

/-- The host operations (92_eei_decisions D1), with their operands. Times are seconds on the host's clock. -/
inductive HostOp where
  /-- `Reset` (R350). -/
  | reset
  /-- `Init` (R157). -/
  | init
  /-- `Ingest(chunk, now)` (R185). -/
  | ingest (chunk : List Byte) (now : Rat)
  /-- a direct `DecodeFrame(frm)` (R205), with the clock reading its field rules use. -/
  | decodeFrame (frm : List Byte) (now : Rat)
  /-- `NoteRtcRequest(t)` (R280). -/
  | noteRtcRequest (t : Rat)
  /-- `CrcCompute(bytes)` (R159). -/
  | crcCompute (bytes : List Byte)
  /-- `BuildFrame(code, fields)` (R296). -/
  | buildFrame (code : U16) (fields : List Byte)
  /-- a register read (R53). -/
  | read (reg : HostReg)
  /-- the host takes the oldest outcome from `EVQ` (R56, R329). -/
  | takeOutcome
deriving DecidableEq, Repr

/-- What a register read answers. -/
inductive HostVal where
  | int (v : Option U64)
  | pattern (v : Option U32)
  | seconds (v : Option Rat)
  | gate (v : Option Gate)
  | records (v : List PassingRecord)
  | outcomes (v : List FrameOutcome)
  | entries (v : List LogEntry)
  | fault (v : FaultReg)
  | engine (v : Eng)
  /-- no register of that slot exists (R85). -/
  | absent
deriving DecidableEq, Repr

/-- What a host operation returns. -/
inductive Reply where
  /-- the operation completed and returns nothing. -/
  | done
  /-- the operation was refused: it changed nothing (R322). -/
  | refused
  /-- the operation was ended by a fatal fault (R327). -/
  | aborted
  /-- the result of `CrcCompute`. -/
  | digest (crc : U16)
  /-- the result of `BuildFrame`. -/
  | frame (wire : List Byte)
  /-- the result of a register read. -/
  | value (v : HostVal)
  /-- the outcome taken from `EVQ`; `none` when it was empty. -/
  | outcome (o : Option FrameOutcome)
deriving DecidableEq, Repr

/-- The machine. -/
structure State where
  /-- the open parameters, fixed while the machine runs (R12, R353). -/
  params : Params
  /-- `ENG` (R32). -/
  eng : Eng
  /-- `CRCTAB` (R31). -/
  crctab : List U16
  /-- `RXBUF` (R34). -/
  rxbuf : List Byte
  /-- the decoder's working state. -/
  work : Work
  /-- the Device Model. -/
  dev : DeviceModel
  /-- `EVQ`, oldest first (R56). -/
  evq : List FrameOutcome
  /-- `LOGQ`, oldest first (R57). -/
  logq : List LogEntry
  /-- `FAULT` (R58). -/
  faultReg : FaultReg
  /-- the model's own: where inside a host operation the block is. -/
  phase : Phase
  /-- the model's own: the bytes of the running `Ingest` not yet examined. -/
  chunk : List Byte
  /-- the model's own: the `NOW` operand of the running operation (R59). -/
  now : Rat
  /-- the model's own: host operations not yet begun, oldest first. -/
  hostq : List HostOp
  /-- the model's own: what finished host operations returned, oldest first. -/
  replies : List Reply
deriving DecidableEq, Repr

/-- The machine stops with a fault. No spec event is one of these: drops, skips and fatal faults are next
states. -/
inductive Fault where
  /-- raised by the step in the TLV walk when `RTYPE` is none of the nine codes, a state no run reaches
  (`DecodeFrame` drops such a frame before the walk, R211). Safe: the spec gives no dispatch there. -/
  | fieldOfUnrecognisedRecord (rtype : U16)
deriving DecidableEq, Repr

/-- The machine gives an instruction no meaning. -/
inductive Refusal where
  /-- raised by an arm of `exec` whose instruction has no meaning yet; safe. No arm raises it. -/
  | notModelled (mnemonic : String)
deriving DecidableEq, Repr

/-- The state after `Reset` of a block with the given parameters (R64, R350). -/
def State.resetWith (params : Params) : State where
  params := params
  eng := .uninit
  crctab := crcTable
  rxbuf := []
  work := Work.empty
  dev := DeviceModel.empty
  evq := []
  logq := []
  faultReg := .none
  phase := .idle
  chunk := []
  now := 0
  hostq := []
  replies := []

/-- The machine right after reset, its parameters left open (R12, R64). -/
def State.reset : State := State.resetWith Config.params

end Sys2Proof.Machine
end

