-- ==== Sys2Proof/Machine/Ops.lean ====
section
/-! DEFINITION. The shared operations over the state: the per-slot files, the diagnostic log and the outcome
queue, the three kinds of exceptional event (`drop`, `skip`, `fatal`; `spec/60_exceptions.md`), the beginning
and end of a frame and of a host operation, the accumulation buffer with its capacity, the guard of a
per-slot write, frame validation, and the engine's `Init`. -/

namespace Sys2Proof.Machine

/-! ## Per-slot files (R43, R44, R85) -/

/-- Read one slot; an unlisted slot holds `none`. -/
def slotGet {α : Type} : SlotFile α → Nat → Option α
  | [], _ => none
  | (k, v) :: rest, s => if s = k then some v else slotGet rest s

/-- `FILE[s] <- some(v)`, keeping the slots strictly rising. -/
def slotSet {α : Type} : SlotFile α → Nat → α → SlotFile α
  | [], s, v => [(s, v)]
  | (k, w) :: rest, s, v =>
    if s < k then (s, v) :: (k, w) :: rest
    else if s = k then (s, v) :: rest
    else (k, w) :: slotSet rest s v

/-- The canonical form of a per-slot file: slots strictly rising, and each below `MAX_SLOTS` (R85). -/
def slotFileWf {α : Type} (maxSlots : Nat) (f : SlotFile α) : Bool :=
  decide ((f.map Prod.fst).Pairwise (· < ·)) && f.all fun e => decide (e.1 < maxSlots)

/-- Every per-slot file is in its canonical form. -/
def Memory.wf (maxSlots : Nat) (d : DeviceModel) : Bool :=
  slotFileWf maxSlots d.rfEnabled && slotFileWf maxSlots d.rfChannel && slotFileWf maxSlots d.rfBand &&
  slotFileWf maxSlots d.rfThreshold && slotFileWf maxSlots d.rfGain && slotFileWf maxSlots d.rfFreq &&
  slotFileWf maxSlots d.rssiMin && slotFileWf maxSlots d.rssiMax && slotFileWf maxSlots d.rssiMean &&
  slotFileWf maxSlots d.rssiLast

/-! ## Log, outcome, and the three kinds of event -/

/-- The number of a cause (R310). -/
def Cause.code : Cause → Nat
  | .tooShort => 1
  | .badStart => 2
  | .crcMismatch => 3
  | .unknownType => 4
  | .truncatedTlv => 5
  | .unknownTag => 6
  | .badWidth => 7
  | .noSlot => 8
  | .slotRange => 9
  | .crcSelftestFail => 10
  | .bufOverflow => 11

/-- `log (cause, rtype, tag)` (R328). -/
def log (cause : Cause) (rtype : Option U16) (tag : Option Byte) (s : State) : State :=
  { s with logq := s.logq ++ [⟨cause, rtype, tag⟩] }

/-- `emit Outcome(RTYPE, CURSLOT, LASTREC)` (R223). -/
def emit (s : State) : State :=
  { s with evq := s.evq ++ [⟨s.work.rtype, s.work.curslot, s.work.lastrec⟩] }

/-- The frame's decode is over: its working state is discarded (R60, R102, R221) and the extractor goes on (R199). -/
def endFrame (s : State) : State :=
  { s with work := Work.empty, phase := .scan }

/-- `drop CAUSE`: log, end the decode, nothing undone, no outcome (R320). -/
def drop (cause : Cause) (rtype : Option U16) (tag : Option Byte) (s : State) : State :=
  endFrame (log cause rtype tag s)

/-- `skip CAUSE`: log with the record type and tag; the field writes nothing and the walk goes on (R321). -/
def skip (cause : Cause) (r : RecordType) (tag : Byte) (s : State) : State :=
  log cause (some r.code) (some tag) s

/-- The log entry's cause of a fatal fault (R310). -/
def FaultReg.cause : FaultReg → Option Cause
  | .none => Option.none
  | .crcSelftestFail => some .crcSelftestFail
  | .bufOverflow => some .bufOverflow

/-- `fatal CAUSE`: the sticky fault register and one log entry (R322, R323). -/
def fatal (f : FaultReg) (s : State) : State :=
  let s := { s with faultReg := f }
  match f.cause with
  | some c => log c none none s
  | none => s

/-! ## Host operations: return -/

/-- Hand the host an operation's result. -/
def answer (r : Reply) (s : State) : State :=
  { s with replies := s.replies ++ [r] }

/-- The running operation returns: between operations no chunk is pending (R98 (e), R24). -/
def finish (r : Reply) (s : State) : State :=
  answer r { s with phase := .idle, chunk := [] }

/-! ## Frame start -/

/-- `DecodeFrame` begins: frame-local state cleared (R221), the candidate handed to `Unescape` (R206). -/
def beginFrame (frm : List Byte) (s : State) : State :=
  { s with work := { Work.empty with frm := frm, fcur := frm }, phase := .unescape }

/-! ## The accumulation buffer (R34, R192, R198) -/

/-- May one more byte be appended to the frame in progress? (R198) -/
def hasRoom (s : State) : Bool :=
  match s.params.bufCap with
  | none => true
  | some cap => decide (s.rxbuf.length < cap)

/-- `fatal BUF_OVERFLOW`: `RXBUF` keeps what it holds, the offending byte and the rest of the chunk are lost,
the operation ends (R198, R323, R327). -/
def overflow (s : State) : State :=
  finish .aborted (fatal .bufOverflow s)

/-- `ACC <- ACC ++ [b]`, subject to the capacity (R192, R198). -/
def accumulate (b : Byte) (s : State) : State :=
  if hasRoom s then { s with rxbuf := s.rxbuf ++ [b] } else overflow s

/-- A byte that is neither START nor END: discarded in HUNT, appended in COLLECT (R187, R196, R197). -/
def collect (b : Byte) (s : State) : State :=
  if s.rxbuf = [] then s else accumulate b s

/-- The END byte: discarded in HUNT; in COLLECT it completes the candidate, which is decoded (R195). -/
def closeFrame (s : State) : State :=
  if s.rxbuf = [] then s
  else if hasRoom s then beginFrame (s.rxbuf ++ [END]) { s with rxbuf := [] }
  else overflow s

/-! ## `Unescape`, a byte that is no pair (R171) -/

/-- Append one byte to the unescaped frame. -/
def pushUnescaped (b : Byte) (s : State) : State :=
  { s with work := { s.work with u := s.work.u ++ [b] } }

/-- The reader of the candidate, where no escape pair stands: copy the byte through, drop a dangling ESC
(R173), or go on to the checks when nothing is left. -/
def copyPlain (s : State) : State :=
  match s.work.fcur with
  | [] => { s with phase := .check }
  | b :: rest =>
    let s := { s with work := { s.work with fcur := rest } }
    if b = ESC then s else pushUnescaped b s

/-! ## Frame validation (R207 to R209) -/

/-- `U[3] <- 0; U[4] <- 0` (R209). -/
def zeroCrcField (u : List Byte) : List Byte := (u.set 3 0).set 4 0

/-- `CRCF = U[3] + 256 * U[4]` (R117). -/
def crcField (u : List Byte) : U16 := u16le (u.getD 3 0) (u.getD 4 0)

/-- The declared length `LEN = U[1] + 256 * U[2]`, extracted and compared with nothing (R117, R210). -/
def declaredLength (u : List Byte) : U16 := u16le (u.getD 1 0) (u.getD 2 0)

/-- The first drop cause of steps 2 and 3 that applies, in the fixed order of R324; `none` when the frame passes. -/
def judgeFrame (tab : List U16) (u : List Byte) : Option Cause :=
  if u.length < MIN_FRAME then some .tooShort
  else if u.getD 0 0 ≠ START then some .badStart
  else if crc16 tab (zeroCrcField u) ≠ crcField u then some .crcMismatch
  else none

/-- A recognised frame: `RTYPE` latched and `P <- U[7..]`, the walk begins (R211, R213). -/
def startWalk (r : RecordType) (s : State) : State :=
  { s with work := { s.work with rtype := r.code, p := s.work.u.drop HDR_LEN }, phase := .walk }

/-- An unrecognised frame: `RTYPE` latched, the frame dropped with its code in the log (R124, R314). -/
def dropUnknownType (rtype : U16) (s : State) : State :=
  drop .unknownType (some rtype) none { s with work := { s.work with rtype := rtype } }

/-! ## The guard of a per-slot write (R228) -/

/-- `SlotWrite(FILE, v)`, the write given as a function of the slot. -/
def slotWrite (r : RecordType) (tag : Byte) (write : Nat → DeviceModel → DeviceModel) (s : State) : State :=
  match s.work.curslot with
  | none => skip .noSlot r tag s
  | some slot =>
    if slot ≥ s.params.maxSlots then skip .slotRange r tag s
    else { s with dev := write slot s.dev }

/-- A write of a Device Model register that is not per slot. -/
def devWrite (write : DeviceModel → DeviceModel) (s : State) : State :=
  { s with dev := write s.dev }

/-- `CURSLOT <- some(slot)` (R39). -/
def setCurslot (slot : Nat) (s : State) : State :=
  { s with work := { s.work with curslot := some slot } }

/-- A write of the provisional builder (R261). -/
def pbWrite (write : PassingBuilder → PassingBuilder) (s : State) : State :=
  { s with work := { s.work with pb := write s.work.pb } }

/-! ## `Init` (R157) -/

/-- `Init`: only from UNINIT; builds `CRCTAB`, runs the self-test, ends READY or FAILED with the fatal fault. -/
def initEngine (s : State) : State :=
  match s.eng with
  | .uninit =>
    let s := { s with crctab := crcTable }
    if selfTestPasses s.crctab then { s with eng := .ready }
    else fatal .crcSelftestFail { s with eng := .failed }
  | .ready => s
  | .failed => s

/-- The engine may be used: `ENG = READY` and no fatal fault (R150, R322). -/
def operable (s : State) : Bool := s.eng == .ready && s.faultReg == .none

end Sys2Proof.Machine
end

