-- ==== Sys2Proof/Machine/Operands.lean ====
section
/-! DEFINITION. Operand assembly (`spec/43_record_decoder.md` rules R225 to R227, `spec/44_tlv_fields_a.md`
rule R252, `spec/45_tlv_fields_b.md` rules R269 and R282): integer and float operands with their admitted
widths, the slot operand, the gate-state map, and the device clock in seconds. -/

namespace Sys2Proof.Machine

/-- `UIntLE(v)`: least significant byte first (R15, R86). -/
def uintLE : List Byte → Nat
  | [] => 0
  | b :: rest => b.toNat + 256 * uintLE rest

/-- `LEBytes(x, w)`: the `w` bytes of x, least significant first (R15). -/
def leBytes (x : Nat) : Nat → List Byte
  | 0 => []
  | w + 1 => BitVec.ofNat 8 x :: leBytes (x / 256) w

/-- The widths of an integer field (R225). -/
def uintWidths : List Nat := [1, 2, 4, 8]

/-- `UIntVal(val)`: zero-extended to 64 bits; `none` at a width that is not admitted (R225). -/
def uintVal (val : List Byte) : Option U64 :=
  if uintWidths.contains val.length then some (BitVec.ofNat 64 (uintLE val)) else none

/-- `F32Val(val)`: the 32-bit pattern; `none` unless the value has 4 bytes (R226). -/
def f32Val (val : List Byte) : Option U32 :=
  if val.length = 4 then some (BitVec.ofNat 32 (uintLE val)) else none

/-- A field of kind UINT: its effect on the operand, or `skip BAD_WIDTH` (R225). -/
def withUInt (r : RecordType) (tag : Byte) (val : List Byte) (effect : U64 → State → State) (s : State) : State :=
  match uintVal val with
  | some v => effect v s
  | none => skip .badWidth r tag s

/-- A field of kind F32: its effect on the pattern, or `skip BAD_WIDTH` (R226). -/
def withF32 (r : RecordType) (tag : Byte) (val : List Byte) (effect : U32 → State → State) (s : State) : State :=
  match f32Val val with
  | some v => effect v s
  | none => skip .badWidth r tag s

/-- `SlotFromWire(w)`: `w - 1`, clamped at 0; not bounded by `MAX_SLOTS` (R227). -/
def slotFromWire (w : U64) : Nat := if w.toNat ≥ 1 then w.toNat - 1 else 0

/-- `GateDecode(v)`: the state whose code is v, else idle (R252). -/
def gateDecode (codes : GateCodes) (v : U64) : Gate :=
  if (codes.idle).toNat = v.toNat then .idle
  else if (codes.active).toNat = v.toNat then .active
  else if (codes.crashed).toNat = v.toNat then .crashed
  else if (codes.shutdown).toNat = v.toNat then .shutdown
  else .idle

/-- `RtcSeconds(v) = v / RTC_TICKS_PER_SECOND`, exact (R282). -/
def rtcSeconds (p : Params) (v : U64) : Rat := (v.toNat : Rat) / p.rtcTicksPerSecond

/-- `LocalTime(v)` (R269): the current correlation plus the device time; `none` before any correlation. -/
def localTime (s : State) (v : U64) : Option Rat :=
  match s.dev.rtcLocalSeconds with
  | none => none
  | some l => some (l + rtcSeconds s.params v)

end Sys2Proof.Machine
end

