-- ==== Sys2Proof/Machine/FieldsA.lean ====
section
/-! DEFINITION. Level 3, first part (`spec/44_tlv_fields_a.md`): the TLV fields of the RSSI, RF-Setup, State-Control,
Settings and Descriptor records. -/

namespace Sys2Proof.Machine

/-- The two gate registers, written together (R46, R246, R275). -/
def gateWrite (v : U64) (s : State) : State :=
  devWrite (fun d => { d with gateRaw := some v, gateState := some (gateDecode s.params.gateCode v) }) s

/-- `RSSI.SLOT`: `CURSLOT <- some(SlotFromWire(v))` (R231). -/
def execRssiSlot (val : List Byte) (s : State) : Host.Outcome State Fault Refusal :=
  .next (withUInt .rssi 0x01#8 val (fun v => setCurslot (slotFromWire v)) s)

/-- `RSSI.MIN`: `SlotWrite(RSSI_MIN, v)` (R232). -/
def execRssiMin (val : List Byte) (s : State) : Host.Outcome State Fault Refusal :=
  .next (withF32 .rssi 0x20#8 val (fun v => slotWrite .rssi 0x20#8 fun slot d => { d with rssiMin := slotSet d.rssiMin slot v }) s)

/-- `RSSI.MAX`: `SlotWrite(RSSI_MAX, v)` (R233). -/
def execRssiMax (val : List Byte) (s : State) : Host.Outcome State Fault Refusal :=
  .next (withF32 .rssi 0x21#8 val (fun v => slotWrite .rssi 0x21#8 fun slot d => { d with rssiMax := slotSet d.rssiMax slot v }) s)

/-- `RSSI.MEAN`: `SlotWrite(RSSI_MEAN, v)` (R234). -/
def execRssiMean (val : List Byte) (s : State) : Host.Outcome State Fault Refusal :=
  .next (withF32 .rssi 0x22#8 val (fun v => slotWrite .rssi 0x22#8 fun slot d => { d with rssiMean := slotSet d.rssiMean slot v }) s)

/-- `RSSI.X23`, "customRate": ignored but logged (R126, R235). -/
def execRssiX23 (_val : List Byte) (s : State) : Host.Outcome State Fault Refusal :=
  .next (skip .unknownTag .rssi 0x23#8 s)

/-- `RSSI.X26`: ignored but logged (R126, R236). -/
def execRssiX26 (_val : List Byte) (s : State) : Host.Outcome State Fault Refusal :=
  .next (skip .unknownTag .rssi 0x26#8 s)

/-- `RSSI.UNKNOWN`: an unknown tag is logged and skipped (R125, R219). -/
def execRssiUnknown (tag : Byte) (_val : List Byte) (s : State) : Host.Outcome State Fault Refusal :=
  .next (skip .unknownTag .rssi tag s)

/-- `RFSETUP.SLOT`: `CURSLOT <- some(SlotFromWire(v))` (R238). -/
def execRfsetupSlot (val : List Byte) (s : State) : Host.Outcome State Fault Refusal :=
  .next (withUInt .rfsetup 0x01#8 val (fun v => setCurslot (slotFromWire v)) s)

/-- `RFSETUP.ENABLED`: `SlotWrite(RF_ENABLED, v)` (R239). -/
def execRfsetupEnabled (val : List Byte) (s : State) : Host.Outcome State Fault Refusal :=
  .next (withUInt .rfsetup 0x20#8 val (fun v => slotWrite .rfsetup 0x20#8 fun slot d => { d with rfEnabled := slotSet d.rfEnabled slot v }) s)

/-- `RFSETUP.CHANNEL`: `SlotWrite(RF_CHANNEL, v)` (R240). -/
def execRfsetupChannel (val : List Byte) (s : State) : Host.Outcome State Fault Refusal :=
  .next (withUInt .rfsetup 0x21#8 val (fun v => slotWrite .rfsetup 0x21#8 fun slot d => { d with rfChannel := slotSet d.rfChannel slot v }) s)

/-- `RFSETUP.BAND`: `SlotWrite(RF_BAND, v)` (R241). -/
def execRfsetupBand (val : List Byte) (s : State) : Host.Outcome State Fault Refusal :=
  .next (withUInt .rfsetup 0x22#8 val (fun v => slotWrite .rfsetup 0x22#8 fun slot d => { d with rfBand := slotSet d.rfBand slot v }) s)

/-- `RFSETUP.THRESHOLD`: `SlotWrite(RF_THRESHOLD, v)` (R242). -/
def execRfsetupThreshold (val : List Byte) (s : State) : Host.Outcome State Fault Refusal :=
  .next (withF32 .rfsetup 0x23#8 val (fun v => slotWrite .rfsetup 0x23#8 fun slot d => { d with rfThreshold := slotSet d.rfThreshold slot v }) s)

/-- `RFSETUP.GAIN`: `SlotWrite(RF_GAIN, v)` (R243). -/
def execRfsetupGain (val : List Byte) (s : State) : Host.Outcome State Fault Refusal :=
  .next (withUInt .rfsetup 0x24#8 val (fun v => slotWrite .rfsetup 0x24#8 fun slot d => { d with rfGain := slotSet d.rfGain slot v }) s)

/-- `RFSETUP.FREQ`: `SlotWrite(RF_FREQ, v)` (R244). -/
def execRfsetupFreq (val : List Byte) (s : State) : Host.Outcome State Fault Refusal :=
  .next (withUInt .rfsetup 0x25#8 val (fun v => slotWrite .rfsetup 0x25#8 fun slot d => { d with rfFreq := slotSet d.rfFreq slot v }) s)

/-- `RFSETUP.UNKNOWN`: an unknown tag is logged and skipped (R125, R219). -/
def execRfsetupUnknown (tag : Byte) (_val : List Byte) (s : State) : Host.Outcome State Fault Refusal :=
  .next (skip .unknownTag .rfsetup tag s)

/-- `STATECTL.GATE`: `GATE_RAW <- some(v)`, `GATE_STATE <- some(GateDecode(v))` (R246). -/
def execStatectlGate (val : List Byte) (s : State) : Host.Outcome State Fault Refusal :=
  .next (withUInt .statectl 0x20#8 val gateWrite s)

/-- `STATECTL.UNKNOWN`: an unknown tag is logged and skipped (R125, R219). -/
def execStatectlUnknown (tag : Byte) (_val : List Byte) (s : State) : Host.Outcome State Fault Refusal :=
  .next (skip .unknownTag .statectl tag s)

/-- `SETTINGS.STATUSINT`: write-only on encode, so a received one is an unknown tag (R126, R248). -/
def execSettingsStatusint (_val : List Byte) (s : State) : Host.Outcome State Fault Refusal :=
  .next (skip .unknownTag .settings 0x22#8 s)

/-- `SETTINGS.MINLAP`: `MIN_LAP_TIME <- some(v)` (R249). -/
def execSettingsMinlap (val : List Byte) (s : State) : Host.Outcome State Fault Refusal :=
  .next (withUInt .settings 0x26#8 val (fun v => devWrite fun d => { d with minLapTime := some v }) s)

/-- `SETTINGS.UNKNOWN`: an unknown tag is logged and skipped (R125, R219). -/
def execSettingsUnknown (tag : Byte) (_val : List Byte) (s : State) : Host.Outcome State Fault Refusal :=
  .next (skip .unknownTag .settings tag s)

/-- `DESC.ANY`: every tag of a Descriptor frame is passed over silently (R126, R251). -/
def execDescAny (_tag : Byte) (_val : List Byte) (s : State) : Host.Outcome State Fault Refusal :=
  .next (s)


end Sys2Proof.Machine
end

