-- ==== Sys2Proof/Machine/FieldsB.lean ====
section
/-! DEFINITION. Level 3, second part (`spec/45_tlv_fields_b.md`): the TLV fields of the Passing, Status, Time and
Error records, the commit of a passing record and the RTC correlation. -/

namespace Sys2Proof.Machine

/-- The commit of a passing record (R263): a copy of the builder with its rtc-time and local time is appended,
remembered as the last record, and the builder is cleared. -/
def commitPassing (v : U64) (s : State) : State :=
  let r : PassingRecord :=
    { pilotId := s.work.pb.pilotId
      passingNumber := s.work.pb.passingNumber
      rtcTime := some v
      decoderId := s.work.pb.decoderId
      peakHeight := s.work.pb.peakHeight
      flags := s.work.pb.flags
      localTime := localTime s v }
  { s with
    dev := { s.dev with passing := s.dev.passing ++ [r] }
    work := { s.work with lastrec := some r, pb := PassingBuilder.empty } }

/-- The RTC correlation (R281), with `v` the value just written to `RTC_TIME`: half the round trip before
`NOW`, less the device time; the pending request is consumed. Nothing happens with no request pending. -/
def correlate (v : U64) (s : State) : State :=
  match s.dev.rtcReqAt with
  | none => s
  | some t0 =>
    let latency := (s.now - t0) * mkRat 1 2
    devWrite (fun d => { d with rtcLocalSeconds := some ((s.now - latency) - rtcSeconds s.params v), rtcReqAt := none }) s

/-- `PASSING.SLOT`: `PB.pilotId` and `CURSLOT` both take `SlotFromWire(v)` (R262). -/
def execPassingSlot (val : List Byte) (s : State) : Host.Outcome State Fault Refusal :=
  .next (withUInt .passing 0x01#8 val
    (fun v s => setCurslot (slotFromWire v) (pbWrite (fun pb => { pb with pilotId := some (slotFromWire v) }) s)) s)

/-- `PASSING.RTC`: commits the provisional record; it does not touch `RTC_TIME` (R263, R278). -/
def execPassingRtc (val : List Byte) (s : State) : Host.Outcome State Fault Refusal :=
  .next (withUInt .passing 0x02#8 val commitPassing s)

/-- `PASSING.DECODER`: `PB.decoderId <- some(v)` (R264). -/
def execPassingDecoder (val : List Byte) (s : State) : Host.Outcome State Fault Refusal :=
  .next (withUInt .passing 0x20#8 val (fun v => pbWrite fun pb => { pb with decoderId := some v }) s)

/-- `PASSING.NUMBER`: `PB.passingNumber <- some(v)` (R265). -/
def execPassingNumber (val : List Byte) (s : State) : Host.Outcome State Fault Refusal :=
  .next (withUInt .passing 0x21#8 val (fun v => pbWrite fun pb => { pb with passingNumber := some v }) s)

/-- `PASSING.PEAK`: `PB.peakHeight <- some(v)` (R266). -/
def execPassingPeak (val : List Byte) (s : State) : Host.Outcome State Fault Refusal :=
  .next (withUInt .passing 0x22#8 val (fun v => pbWrite fun pb => { pb with peakHeight := some v }) s)

/-- `PASSING.FLAGS`: `PB.flags <- some(v)` (R267). -/
def execPassingFlags (val : List Byte) (s : State) : Host.Outcome State Fault Refusal :=
  .next (withUInt .passing 0x23#8 val (fun v => pbWrite fun pb => { pb with flags := some v }) s)

/-- `PASSING.UNKNOWN`: an unknown tag is logged and skipped (R125, R219). -/
def execPassingUnknown (tag : Byte) (_val : List Byte) (s : State) : Host.Outcome State Fault Refusal :=
  .next (skip .unknownTag .passing tag s)

/-- `STATUS.SLOT`: `CURSLOT <- some(SlotFromWire(v))` (R271). -/
def execStatusSlot (val : List Byte) (s : State) : Host.Outcome State Fault Refusal :=
  .next (withUInt .status 0x01#8 val (fun v => setCurslot (slotFromWire v)) s)

/-- `STATUS.FLAGS`: `STATUS_FLAGS <- some(v)` (R272). -/
def execStatusFlags (val : List Byte) (s : State) : Host.Outcome State Fault Refusal :=
  .next (withUInt .status 0x03#8 val (fun v => devWrite fun d => { d with statusFlags := some v }) s)

/-- `STATUS.BATT`: `BATT_MV <- some(v)` (R273). -/
def execStatusBatt (val : List Byte) (s : State) : Host.Outcome State Fault Refusal :=
  .next (withUInt .status 0x21#8 val (fun v => devWrite fun d => { d with battMv := some v }) s)

/-- `STATUS.LASTRSSI`: `SlotWrite(RSSI_LAST, v)` (R274). -/
def execStatusLastrssi (val : List Byte) (s : State) : Host.Outcome State Fault Refusal :=
  .next (withF32 .status 0x22#8 val (fun v => slotWrite .status 0x22#8 fun slot d => { d with rssiLast := slotSet d.rssiLast slot v }) s)

/-- `STATUS.GATE`: `GATE_RAW <- some(v)`, `GATE_STATE <- some(GateDecode(v))` (R275). -/
def execStatusGate (val : List Byte) (s : State) : Host.Outcome State Fault Refusal :=
  .next (withUInt .status 0x23#8 val gateWrite s)

/-- `STATUS.DETECT`: `DETECT_COUNT <- some(v)` (R276). -/
def execStatusDetect (val : List Byte) (s : State) : Host.Outcome State Fault Refusal :=
  .next (withUInt .status 0x24#8 val (fun v => devWrite fun d => { d with detectCount := some v }) s)

/-- `STATUS.UNKNOWN`: an unknown tag is logged and skipped (R125, R219). -/
def execStatusUnknown (tag : Byte) (_val : List Byte) (s : State) : Host.Outcome State Fault Refusal :=
  .next (skip .unknownTag .status tag s)

/-- `TIME.RTC`: `RTC_TIME <- some(v)`, then the correlation (R278, R281). -/
def execTimeRtc (val : List Byte) (s : State) : Host.Outcome State Fault Refusal :=
  .next (withUInt .time 0x02#8 val
    (fun v s => correlate v (devWrite (fun d => { d with rtcTime := some v }) s)) s)

/-- `TIME.TRT`: `TIME_RTC_TIME <- some(v)` (R279). -/
def execTimeTrt (val : List Byte) (s : State) : Host.Outcome State Fault Refusal :=
  .next (withUInt .time 0x20#8 val (fun v => devWrite fun d => { d with timeRtcTime := some v }) s)

/-- `TIME.UNKNOWN`: an unknown tag is logged and skipped (R125, R219). -/
def execTimeUnknown (tag : Byte) (_val : List Byte) (s : State) : Host.Outcome State Fault Refusal :=
  .next (skip .unknownTag .time tag s)

/-- `ERROR.ANY`: every tag of an Error frame is passed over silently (R126, R284). -/
def execErrorAny (_tag : Byte) (_val : List Byte) (s : State) : Host.Outcome State Fault Refusal :=
  .next (s)


end Sys2Proof.Machine
end

