-- ==== Sys2Proof/Machine/Frames.lean ====
section
/-! DEFINITION. Level 2: frames by record type, after the frame has passed length, START and CRC
(`spec/43_record_decoder.md` rules R211 to R213, `spec/60_exceptions.md` rule R314). -/

namespace Sys2Proof.Machine

/-- `RSSI` frame (R230): recognised, the TLV walk begins (R211, R213). -/
def execRssi (s : State) : Host.Outcome State Fault Refusal :=
  .next (startWalk .rssi s)

/-- `RFSETUP` frame (R237): recognised, the TLV walk begins (R211, R213). -/
def execRfsetup (s : State) : Host.Outcome State Fault Refusal :=
  .next (startWalk .rfsetup s)

/-- `STATECTL` frame (R245): recognised, the TLV walk begins (R211, R213). -/
def execStatectl (s : State) : Host.Outcome State Fault Refusal :=
  .next (startWalk .statectl s)

/-- `SETTINGS` frame (R247): recognised, the TLV walk begins (R211, R213). -/
def execSettings (s : State) : Host.Outcome State Fault Refusal :=
  .next (startWalk .settings s)

/-- `DESC` frame (R250): recognised, the TLV walk begins (R211, R213). -/
def execDesc (s : State) : Host.Outcome State Fault Refusal :=
  .next (startWalk .desc s)

/-- `PASSING` frame (R260): recognised, the TLV walk begins (R211, R213). -/
def execPassing (s : State) : Host.Outcome State Fault Refusal :=
  .next (startWalk .passing s)

/-- `STATUS` frame (R270): recognised, the TLV walk begins (R211, R213). -/
def execStatus (s : State) : Host.Outcome State Fault Refusal :=
  .next (startWalk .status s)

/-- `TIME` frame (R277): recognised, the TLV walk begins (R211, R213). -/
def execTime (s : State) : Host.Outcome State Fault Refusal :=
  .next (startWalk .time s)

/-- `ERROR` frame (R283): recognised, the TLV walk begins (R211, R213). -/
def execError (s : State) : Host.Outcome State Fault Refusal :=
  .next (startWalk .error s)

/-- `FRAME.UNKNOWN`: dropped, cause UNKNOWN_TYPE, no field walked (R124, R314). -/
def execFrameUnknown (rtype : U16) (s : State) : Host.Outcome State Fault Refusal :=
  .next (dropUnknownType rtype s)


end Sys2Proof.Machine
end

