-- ==== Sys2Proof/Machine/Stream.lean ====
section
/-! DEFINITION. Level 1 and 1a: the four stream byte classes of the frame extractor (`spec/42_frame_extractor.md`
rules R194 to R197) and the escape pair (`spec/41_escape.md` rules R171, R172). -/

namespace Sys2Proof.Machine

/-- `BYTE.START`: opens a candidate in HUNT, is data in COLLECT; either way it is appended (R190, R194). -/
def execByteStart (s : State) : Host.Outcome State Fault Refusal :=
  .next (accumulate START s)

/-- `BYTE.END`: discarded in HUNT; in COLLECT it completes the candidate (R195). -/
def execByteEnd (s : State) : Host.Outcome State Fault Refusal :=
  .next (closeFrame s)

/-- `BYTE.ESC`: the extractor does not know it (R196). -/
def execByteEsc (s : State) : Host.Outcome State Fault Refusal :=
  .next (collect ESC s)

/-- `BYTE.DATA`: any other byte (R197). -/
def execByteData (b : Byte) (s : State) : Host.Outcome State Fault Refusal :=
  .next (collect b s)

/-- `ESC.PAIR`: the pair stands for `(x - 0x40) mod 256` (R112, R171, R172). -/
def execEscPair (x : Byte) (s : State) : Host.Outcome State Fault Refusal :=
  .next (pushUnescaped (unescapeByte x) s)


end Sys2Proof.Machine
end

