-- ==== Sys2Proof/Machine/Dispatch.lean ====
section
/-! DEFINITION. The dispatch: one arm per constructor of `Instr`, each one direct call of its meaning. -/

namespace Sys2Proof.Machine

def exec (i : Instr) (s : State) : Host.Outcome State Fault Refusal :=
  match i with
  | .byteStart => Sys2Proof.Machine.execByteStart s
  | .byteEnd => Sys2Proof.Machine.execByteEnd s
  | .byteEsc => Sys2Proof.Machine.execByteEsc s
  | .byteData b => Sys2Proof.Machine.execByteData b s
  | .escPair x => Sys2Proof.Machine.execEscPair x s
  | .rssi => Sys2Proof.Machine.execRssi s
  | .rfsetup => Sys2Proof.Machine.execRfsetup s
  | .statectl => Sys2Proof.Machine.execStatectl s
  | .settings => Sys2Proof.Machine.execSettings s
  | .desc => Sys2Proof.Machine.execDesc s
  | .passing => Sys2Proof.Machine.execPassing s
  | .status => Sys2Proof.Machine.execStatus s
  | .time => Sys2Proof.Machine.execTime s
  | .error => Sys2Proof.Machine.execError s
  | .frameUnknown rtype => Sys2Proof.Machine.execFrameUnknown rtype s
  | .rssiSlot val => Sys2Proof.Machine.execRssiSlot val s
  | .rssiMin val => Sys2Proof.Machine.execRssiMin val s
  | .rssiMax val => Sys2Proof.Machine.execRssiMax val s
  | .rssiMean val => Sys2Proof.Machine.execRssiMean val s
  | .rssiX23 val => Sys2Proof.Machine.execRssiX23 val s
  | .rssiX26 val => Sys2Proof.Machine.execRssiX26 val s
  | .rfsetupSlot val => Sys2Proof.Machine.execRfsetupSlot val s
  | .rfsetupEnabled val => Sys2Proof.Machine.execRfsetupEnabled val s
  | .rfsetupChannel val => Sys2Proof.Machine.execRfsetupChannel val s
  | .rfsetupBand val => Sys2Proof.Machine.execRfsetupBand val s
  | .rfsetupThreshold val => Sys2Proof.Machine.execRfsetupThreshold val s
  | .rfsetupGain val => Sys2Proof.Machine.execRfsetupGain val s
  | .rfsetupFreq val => Sys2Proof.Machine.execRfsetupFreq val s
  | .statectlGate val => Sys2Proof.Machine.execStatectlGate val s
  | .settingsStatusint val => Sys2Proof.Machine.execSettingsStatusint val s
  | .settingsMinlap val => Sys2Proof.Machine.execSettingsMinlap val s
  | .passingSlot val => Sys2Proof.Machine.execPassingSlot val s
  | .passingRtc val => Sys2Proof.Machine.execPassingRtc val s
  | .passingDecoder val => Sys2Proof.Machine.execPassingDecoder val s
  | .passingNumber val => Sys2Proof.Machine.execPassingNumber val s
  | .passingPeak val => Sys2Proof.Machine.execPassingPeak val s
  | .passingFlags val => Sys2Proof.Machine.execPassingFlags val s
  | .statusSlot val => Sys2Proof.Machine.execStatusSlot val s
  | .statusFlags val => Sys2Proof.Machine.execStatusFlags val s
  | .statusBatt val => Sys2Proof.Machine.execStatusBatt val s
  | .statusLastrssi val => Sys2Proof.Machine.execStatusLastrssi val s
  | .statusGate val => Sys2Proof.Machine.execStatusGate val s
  | .statusDetect val => Sys2Proof.Machine.execStatusDetect val s
  | .timeRtc val => Sys2Proof.Machine.execTimeRtc val s
  | .timeTrt val => Sys2Proof.Machine.execTimeTrt val s
  | .descAny tag val => Sys2Proof.Machine.execDescAny tag val s
  | .errorAny tag val => Sys2Proof.Machine.execErrorAny tag val s
  | .rssiUnknown tag val => Sys2Proof.Machine.execRssiUnknown tag val s
  | .rfsetupUnknown tag val => Sys2Proof.Machine.execRfsetupUnknown tag val s
  | .statectlUnknown tag val => Sys2Proof.Machine.execStatectlUnknown tag val s
  | .settingsUnknown tag val => Sys2Proof.Machine.execSettingsUnknown tag val s
  | .passingUnknown tag val => Sys2Proof.Machine.execPassingUnknown tag val s
  | .statusUnknown tag val => Sys2Proof.Machine.execStatusUnknown tag val s
  | .timeUnknown tag val => Sys2Proof.Machine.execTimeUnknown tag val s

end Sys2Proof.Machine
end

