-- ==== Sys2Proof/Machine/Encoder.lean ====
section
/-! DEFINITION. Frame construction, the inverse of the receive path (`spec/46_command_encoder.md`): the field
encoders, `BuildRaw` and `BuildFrame`, and what the source says of the named commands without their
contents (R300, R301). `none` is the spec's "refuse". -/

namespace Sys2Proof.Machine

/-- `TlvInt(tag, w, v)`: widths 1, 2, 4, 8 and a value that fits (R291). -/
def tlvInt (tag : Byte) (w v : Nat) : Option (List Byte) :=
  if uintWidths.contains w && decide (v < 2 ^ (8 * w)) then some (tag :: BitVec.ofNat 8 w :: leBytes v w) else none

/-- `TlvF32(tag, bits)` (R292). -/
def tlvF32 (tag : Byte) (bits : U32) : List Byte := tag :: 0x04#8 :: leBytes bits.toNat 4

/-- `TlvRaw(tag, bytes)`: at most 255 value bytes (R293). -/
def tlvRaw (tag : Byte) (bytes : List Byte) : Option (List Byte) :=
  if bytes.length ≤ 255 then some (tlvBytes tag bytes) else none

/-- `WireSlot(s) = s + 1` (R294). -/
def wireSlot (s : Nat) : Nat := s + 1

/-- The unescaped frame before its CRC is stored: header with the length patched, fields, END (R295). -/
def frameBody (code : U16) (fields : List Byte) : List Byte :=
  [START] ++ leBytes (8 + fields.length) 2 ++ [0x00#8, 0x00#8] ++ codeBytes code ++ fields ++ [END]

/-- `BuildRaw(code, fields)` with the CRC over the table `tab`; refused above 65535 bytes (R295). -/
def buildRaw (tab : List U16) (code : U16) (fields : List Byte) : Option (List Byte) :=
  let x := frameBody code fields
  if x.length > MAX_RAW_FRAME then none
  else
    let c := crc16 tab x
    some ((x.set 3 (c.extractLsb' 0 8)).set 4 (c.extractLsb' 8 8))

/-- `BuildFrame(code, fields) = Escape(BuildRaw(code, fields))` (R296). -/
def buildFrame (tab : List U16) (code : U16) (fields : List Byte) : Option (List Byte) :=
  (buildRaw tab code fields).map escape

/-- enable-binary-protocol: fixed literal bytes outside the frame protocol, neither framed nor escaped (R300). -/
def enableBinaryProtocol (p : Params) : List Byte := p.enableBinaryBytes

/-- `RF_SETUP_QUERY_SLOTS`: the wire slot indices request-rf-setup queries, 1 to 8, whatever `MAX_SLOTS` is (R301). -/
def rfSetupQuerySlots : List Nat := [1, 2, 3, 4, 5, 6, 7, 8]

end Sys2Proof.Machine
end

