-- ==== Sys2Proof/Machine/Flags.lean ====
section
/-! DEFINITION. The block has no condition codes (`spec/10_state.md` rule R62): what stands here are the
status values a host can test and the views derived from registers: `XST` (R36), the refusing state (R58,
R331), `enabled` (R43), the battery voltage (R47, R273), and the notification of an outcome (R224). -/

namespace Sys2Proof.Machine

/-- The extractor state `XST` (R36). -/
inductive Xst where
  | hunt
  | collect
deriving DecidableEq, Repr

/-- `XST`: HUNT when `RXBUF` is empty, COLLECT otherwise (R36). -/
def xst (s : State) : Xst := if s.rxbuf = [] then .hunt else .collect

/-- Every operation but `Reset` is refused (R58, R322, R331). -/
def refusing (s : State) : Bool := s.faultReg != .none

/-- `enabled(s) = (RF_ENABLED[s] != some(0))` for a written register; `none` for one never written (R43). -/
def enabledView (d : DeviceModel) (slot : Nat) : Option Bool :=
  match slotGet d.rfEnabled slot with
  | none => none
  | some v => some (v != 0)

/-- `batteryVoltage = BATT_MV / 1000` volts, exact (R47, R273). -/
def batteryVolts (d : DeviceModel) : Option Rat :=
  match d.battMv with
  | none => none
  | some mv => some ((mv.toNat : Rat) / (MV_PER_VOLT : Rat))

/-- The notification of an outcome (R224). -/
def notificationOf (o : FrameOutcome) : Notification :=
  match RecordType.ofCode o.rtype with
  | some .rssi => .rssiUpdated o.slot
  | some .rfsetup => .rfSetupRead o.slot
  | some .time => .timeUpdated
  | some .settings => .settingsUpdated
  | some .passing =>
    match o.record with
    | some r => .passingRecordRead r
    | none => .noOp
  | some .status => .statusUpdated
  | some .statectl => .noOp
  | some .desc => .noOp
  | some .error => .noOp
  | none => .noOp

end Sys2Proof.Machine
end

