-- ==== Sys2Proof/Machine/HostOps.lean ====
section
/-! DEFINITION. The host operations (92_eei_decisions D1): what each does at once, and for `Ingest` and
`DecodeFrame` how it begins. Every operation but `Reset` and a register read is refused while `FAULT` is set
(`spec/10_state.md` rule R58, `spec/60_exceptions.md` rule R322); those that need the CRC perform `Init`
first (`spec/40_crc16.md` rule R157). -/

namespace Sys2Proof.Machine

/-- `Reset` (R350): every piece of the block's state to its reset value. The parameters and the host's side
(operations not yet begun, replies) are not the block's state and stay. -/
def resetBlock (s : State) : State :=
  { State.resetWith s.params with hostq := s.hostq, replies := s.replies }

/-- A per-slot register, if the slot exists (R85). -/
def readSlot {α : Type} (s : State) (f : SlotFile α) (slot : Nat) (view : Option α → HostVal) : HostVal :=
  if slot < s.params.maxSlots then view (slotGet f slot) else .absent

/-- What a register read answers; it has no side effect (R53). -/
def readReg (s : State) : HostReg → HostVal
  | .rfEnabled slot => readSlot s s.dev.rfEnabled slot .int
  | .rfChannel slot => readSlot s s.dev.rfChannel slot .int
  | .rfBand slot => readSlot s s.dev.rfBand slot .int
  | .rfThreshold slot => readSlot s s.dev.rfThreshold slot .pattern
  | .rfGain slot => readSlot s s.dev.rfGain slot .int
  | .rfFreq slot => readSlot s s.dev.rfFreq slot .int
  | .rssiMin slot => readSlot s s.dev.rssiMin slot .pattern
  | .rssiMax slot => readSlot s s.dev.rssiMax slot .pattern
  | .rssiMean slot => readSlot s s.dev.rssiMean slot .pattern
  | .rssiLast slot => readSlot s s.dev.rssiLast slot .pattern
  | .passing => .records s.dev.passing
  | .gateState => .gate s.dev.gateState
  | .gateRaw => .int s.dev.gateRaw
  | .battMv => .int s.dev.battMv
  | .detectCount => .int s.dev.detectCount
  | .minLapTime => .int s.dev.minLapTime
  | .statusFlags => .int s.dev.statusFlags
  | .rtcTime => .int s.dev.rtcTime
  | .rtcLocalSeconds => .seconds s.dev.rtcLocalSeconds
  | .rtcReqAt => .seconds s.dev.rtcReqAt
  | .timeRtcTime => .int s.dev.timeRtcTime
  | .evq => .outcomes s.evq
  | .logq => .entries s.logq
  | .fault => .fault s.faultReg
  | .eng => .engine s.eng

/-- The address `REG_MAP` assigns to a register, if it assigns one: a view of the platform's parameter. The
operations reach registers by name (R12, R95). -/
def regAddress (p : Params) (reg : HostReg) : Option Nat :=
  match p.regMap.find? fun e => e.1 == reg with
  | some e => some e.2
  | none => none

/-- Run `Init`, then the operation if the engine may be used, else end it with the fatal fault (R157, R324). -/
def withEngine (op : State → State) (s : State) : State :=
  let s := initEngine s
  if operable s then op s else answer .aborted s

/-- An operation that is not refused (R58). -/
def performOp (op : HostOp) (s : State) : State :=
  match op with
  | .reset => answer .done (resetBlock s)
  | .init => withEngine (answer .done) s
  | .ingest chunk now => withEngine (fun s => { s with chunk := chunk, now := now, phase := .scan }) s
  | .decodeFrame frm now => withEngine (fun s => beginFrame frm { s with chunk := [], now := now }) s
  | .noteRtcRequest t => answer .done (devWrite (fun d => { d with rtcReqAt := some t }) s)
  | .crcCompute bytes => withEngine (fun s => answer (.digest (crc16 s.crctab bytes)) s) s
  | .buildFrame code fields =>
    withEngine (fun s => answer (match buildFrame s.crctab code fields with
      | some wire => .frame wire
      | none => .refused) s) s
  | .read reg => answer (.value (readReg s reg)) s
  | .takeOutcome => answer (.outcome s.evq.head?) { s with evq := s.evq.tail }

/-- The operations that run even while `FAULT` is set: `Reset`, and a read, which changes nothing (R53, R58, R350). -/
def HostOp.alwaysAdmitted : HostOp → Bool
  | .reset => true
  | .read _ => true
  | .init => false
  | .ingest _ _ => false
  | .decodeFrame _ _ => false
  | .noteRtcRequest _ => false
  | .crcCompute _ => false
  | .buildFrame _ _ => false
  | .takeOutcome => false

/-- One host operation, refused while `FAULT` is set unless it is always admitted (R58, R322). -/
def hostOp (op : HostOp) (s : State) : State :=
  if refusing s && !op.alwaysAdmitted then answer .refused s else performOp op s

/-- Between operations: the oldest operation not yet begun; with none, nothing happens (R10). -/
def hostStep (s : State) : State :=
  match s.hostq with
  | [] => s
  | op :: rest => hostOp op { s with hostq := rest }

end Sys2Proof.Machine
end

