-- ==== Sys2Proof/Machine/Control.lean ====
section
/-! DEFINITION. The control of the block: in each phase of a host operation, which bytes are decoded, what
the step does around the instruction it runs, and what it does where no instruction stands. `Step.lean` only
calls this. -/

namespace Sys2Proof.Machine

/-- The extractor (R192): the next byte of the chunk is removed and runs; at the end of the chunk `Ingest`
returns, every frame whose END has arrived decoded (R98 (e)). -/
def stepScan (s : State) : Host.Outcome State Fault Refusal :=
  match decode .stream s.chunk with
  | .ok (i, rest) => exec i { s with chunk := rest }
  | .error _ => .next (finish .done s)

/-- `Unescape` (R171): an escape pair is removed and runs; elsewhere the byte is copied through. -/
def stepUnescape (s : State) : Host.Outcome State Fault Refusal :=
  match decode .escape s.work.fcur with
  | .ok (i, rest) => exec i { s with work := { s.work with fcur := rest } }
  | .error _ => .next (copyPlain s)

/-- Steps 2 to 4 of `DecodeFrame` (R207 to R211): the frame is dropped, or, its CRC field zeroed, the frame
instruction at offset 5 runs. -/
def stepCheck (s : State) : Host.Outcome State Fault Refusal :=
  match judgeFrame s.crctab s.work.u with
  | some cause => .next (drop cause none none s)
  | none =>
    let u := zeroCrcField s.work.u
    match decode .frame (u.drop 5) with
    | .ok (i, _) => exec i { s with work := { s.work with u := u } }
    | .error _ => .next (drop .tooShort none none s)

/-- Steps 5 to 7 of `DecodeFrame` (R213 to R218, R223): while more than 3 bytes remain, the field at the
cursor is removed and runs, or is truncated and drops the frame; then the outcome is emitted. -/
def stepWalk (s : State) : Host.Outcome State Fault Refusal :=
  if s.work.p.length ≤ TLV_STOP then .next (endFrame (emit s))
  else
    match decode (.field s.work.rtype) s.work.p with
    | .ok (i, rest) => exec i { s with work := { s.work with p := rest } }
    | .error (.truncatedField tag) => .next (drop .truncatedTlv (some s.work.rtype) (some tag) s)
    | .error _ => .fault (.fieldOfUnrecognisedRecord s.work.rtype)

/-- One step, by phase. -/
def controlStep (s : State) : Host.Outcome State Fault Refusal :=
  match s.phase with
  | .idle => .next (hostStep s)
  | .scan => stepScan s
  | .unescape => stepUnescape s
  | .check => stepCheck s
  | .walk => stepWalk s

/-- Put the instruction of an opcode-table word where the next step fetches (see `State.withFetchWord`): a
stream byte as the chunk of an `Ingest`; an escape pair as the unread part of a candidate; a record type as
an unescaped frame of that type without fields, its CRC in place; a field as the unread payload of a frame
of its record type. The engine is READY there, as `Init` comes before any byte (R185). -/
def placeWord (s : State) (nbits w : Nat) : State :=
  let s := { s with eng := .ready }
  if nbits = 8 then { s with phase := .scan, chunk := [BitVec.ofNat 8 w] }
  else if nbits = 16 then
    if w / 256 = 0x5C then
      { s with phase := .unescape, work := { s.work with fcur := [BitVec.ofNat 8 (w / 256), BitVec.ofNat 8 w] } }
    else
      { s with phase := .check, work := { s.work with u := (buildRaw s.crctab (BitVec.ofNat 16 w) []).getD [] } }
  else
    { s with
      phase := .walk
      work := { s.work with rtype := BitVec.ofNat 16 (w / 256), p := [BitVec.ofNat 8 w, 0x00#8, 0x00#8, 0x00#8] } }

end Sys2Proof.Machine
end

