-- ==== Sys2Proof/Machine/Step.lean ====
section
/-! DEFINITION. One step of the machine, and where its next instruction is fetched from. -/

namespace Sys2Proof.Machine

/-- One step: a host operation between operations, else the next instruction of the running operation. -/
def step (s : State) : Host.Outcome State Fault Refusal := controlStep s

/-- The state with an opcode-table word placed where `step` fetches its next instruction. -/
def State.withFetchWord (s : State) (nbits w : Nat) : State := placeWord s nbits w

end Sys2Proof.Machine
end

