-- ==== Sys2Proof/Machine/Pseudocode.lean ====
section
/-! DEFINITION. The spec's whole-operation pseudocode, beside the step machine and used by no step: `Extract`
over the whole buffer (`spec/42_frame_extractor.md` rule R186), `DecodeFrame` over a whole candidate
(`spec/43_record_decoder.md` rule R205), and `Ingest` made of the two (rule R185). Claims compare the step
machine, which takes one byte or one field a step, with them. -/

namespace Sys2Proof.Machine

/-- The fields of a payload, and the tag of the field that is truncated, if the walk ends so (R213 to R217).
The first argument bounds the number of fields. -/
def splitFields : Nat → List Byte → List (Byte × List Byte) × Option Byte
  | 0, _ => ([], none)
  | n + 1, p =>
    if p.length > TLV_STOP then
      match p with
      | tag :: len :: rest =>
        if len.toNat > rest.length then ([], some tag)
        else
          let more := splitFields n (rest.drop len.toNat)
          ((tag, rest.take len.toNat) :: more.1, more.2)
      | _ => ([], none)
    else ([], none)

/-- `Dispatch(RTYPE, tag, val)` (R218). -/
def dispatchField (r : RecordType) (s : State) (f : Byte × List Byte) : State :=
  match exec (fieldInstr r f.1 f.2) s with
  | .next t => t
  | .fault _ => s
  | .refused _ => s

/-- `DecodeFrame(FRM)` (R205): log and outcome, Device Model, and no working state left. -/
def decodeFrameSpec (frm : List Byte) (s : State) : State :=
  let s := { s with work := Work.empty }
  let u := unescape frm
  if u.length < 8 then log .tooShort none none s
  else if u.getD 0 0 ≠ START then log .badStart none none s
  else if crc16 s.crctab ((u.set 3 0).set 4 0) ≠ u16le (u.getD 3 0) (u.getD 4 0) then log .crcMismatch none none s
  else
    let rtype := u16le (u.getD 5 0) (u.getD 6 0)
    match RecordType.ofCode rtype with
    | none => log .unknownType (some rtype) none s
    | some r =>
      let fields := splitFields u.length (u.drop 7)
      let t : State := fields.1.foldl (dispatchField r) s
      let t : State := match fields.2 with
        | some tag => log .truncatedTlv (some rtype) (some tag) t
        | none => { t with evq := t.evq ++ [⟨rtype, t.work.curslot, t.work.lastrec⟩] }
      { t with work := Work.empty }

/-- `Extract` over a whole buffer (R186): the candidates cut, in order, and what stays in `RXBUF`. The first
argument bounds the number of candidates. -/
def extractSpec : Nat → List Byte → List (List Byte) × List Byte
  | 0, buf => ([], buf)
  | n + 1, buf =>
    let buf := buf.dropWhile (· != START)
    if END ∈ buf then
      let k := buf.idxOf END
      let more := extractSpec n (buf.drop (k + 1))
      (buf.take (k + 1) :: more.1, more.2)
    else ([], buf)

/-- `Extract` over a whole buffer under a capacity (R186 with R198): the candidates cut, in order, what stays in
`RXBUF`, and whether the capacity was exceeded: after step 1, the bytes up to the first END, or all of them when
there is none, number more than `BUF_CAP`. Then `RXBUF` keeps `BUF_CAP` bytes (R323). -/
def extractCapped (cap : Option Nat) : Nat → List Byte → List (List Byte) × List Byte × Bool
  | 0, buf => ([], buf, false)
  | n + 1, buf =>
    let buf := buf.dropWhile (· != START)
    let upTo := if END ∈ buf then buf.take (buf.idxOf END + 1) else buf
    match cap.filter (fun c => decide (c < upTo.length)) with
    | some c => ([], buf.take c, true)
    | none =>
      if END ∈ buf then
        let more := extractCapped cap n (buf.drop upTo.length)
        (upTo :: more.1, more.2)
      else ([], buf, false)

/-- `Ingest(chunk, now)` (R185, R198): extract from the whole buffer, decode each candidate; when the capacity was
exceeded, the fatal fault after the frames completed before it. -/
def ingestSpec (chunk : List Byte) (now : Rat) (s : State) : State :=
  let buf := s.rxbuf ++ chunk
  let cut := extractCapped s.params.bufCap (buf.length + 1) buf
  let t := cut.1.foldl (fun s frm => decodeFrameSpec frm s) { s with rxbuf := cut.2.1, now := now }
  if cut.2.2 then fatal .bufOverflow t else t

end Sys2Proof.Machine
end

