-- ==== Sys2Proof/Safety.lean ====
section
/-! DEFINITION. What a sound state of the block is, as an invariant (`Sound`): the spec's promises about the
state between steps; and the terms claims use: what a run is, what is changed by a host's `Reset`, and what
a field instruction does in every case of its operand and its slot. -/

namespace Sys2Proof.Machine

/-- The invariant of the block. -/
structure Sound (s : State) : Prop where
  /-- the parameters are what R12 asks: an injective gate map, a positive clock rate. -/
  params : s.params.wf = true
  /-- `CRCTAB` is the constructed table (R31). -/
  table : s.crctab = crcTable
  /-- the self-test has not failed (R157: FAILED is reached only by a defective implementation). -/
  engine : s.eng ≠ .failed ∧ s.faultReg ≠ .crcSelftestFail
  /-- a stream is being processed only by a READY engine and with no fatal fault (R150, R322). -/
  running : s.phase ≠ .idle → s.eng = .ready ∧ s.faultReg = .none
  /-- `RXBUF` is empty, or begins with START and holds no END (R191). -/
  buffer : s.rxbuf = [] ∨ s.rxbuf.head? = some START ∧ END ∉ s.rxbuf
  /-- the frame in progress is within `BUF_CAP` (R34, R198). -/
  capacity : ∀ cap, s.params.bufCap = some cap → s.rxbuf.length ≤ cap
  /-- between operations no chunk is pending (R98 (e)). -/
  between : s.phase = .idle → s.chunk = []
  /-- outside a frame's decode no working state is left (R60, R221). -/
  noFrame : s.phase = .idle ∨ s.phase = .scan → s.work = Work.empty
  /-- before the walk the frame-local registers are `none` (R221). -/
  fresh : s.phase = .unescape ∨ s.phase = .check →
    s.work.curslot = none ∧ s.work.lastrec = none ∧ s.work.pb = PassingBuilder.empty
  /-- what is unescaped so far is a prefix of `Unescape(FRM)`, and the rest is still to be read (R206). -/
  unescaping : s.phase = .unescape → s.work.u ++ unescape s.work.fcur = unescape s.work.frm
  /-- the frame judged is `Unescape(FRM)` (R206). -/
  checking : s.phase = .check → s.work.u = unescape s.work.frm
  /-- a walk is under a recognised record type (R212), over a suffix of the payload (R37). -/
  walking : s.phase = .walk → s.work.rtype ∈ recognisedCodes ∧ s.work.p <:+ s.work.u.drop HDR_LEN
  /-- the per-slot files are in canonical form, every slot below `MAX_SLOTS` (R85). -/
  slots : Memory.wf s.params.maxSlots s.dev = true

/-- One step from `s` answers the next state `t`. -/
def Steps (s t : State) : Prop := step s = .next t

/-- Some number of steps from `s`, each answering a next state, ends in `t`. -/
def RunsTo (s t : State) : Prop := Relation.ReflTransGen Steps s t

/-- The next step performs the host operation `op`. -/
def Performs (s : State) (op : HostOp) : Prop := s.phase = .idle ∧ s.hostq.head? = some op

/-- `RXBUF` may take one more byte of the frame in progress (R198). -/
def Room (s : State) : Prop := ∀ cap, s.params.bufCap = some cap → s.rxbuf.length < cap

/-- A field of kind UINT whose effect does not depend on a slot: its effect on the operand, or the log entry
of `BAD_WIDTH` and nothing else (R225, R317, R321). -/
def IntFieldDoes (field : List Byte → Instr) (code : U16) (tag : Byte) (effect : U64 → State → State) : Prop :=
  (∀ s val v, uintVal val = some v → exec (field val) s = .next (effect v s)) ∧
  (∀ s val, uintVal val = none →
    exec (field val) s = .next { s with logq := s.logq ++ [⟨.badWidth, some code, some tag⟩] })

/-- A per-slot field (R228): `BAD_WIDTH` before `NO_SLOT` before `SLOT_RANGE`, each a log entry and nothing
else; otherwise the register of the current slot reads the operand, every other register reads as before,
and nothing else changes. -/
def SlotFieldDoes {α : Type} (field : List Byte → Instr) (code : U16) (tag : Byte) (operand : List Byte → Option α)
    (file : DeviceModel → SlotFile α) (update : SlotFile α → DeviceModel → DeviceModel) : Prop :=
  (∀ s val, operand val = none →
    exec (field val) s = .next { s with logq := s.logq ++ [⟨.badWidth, some code, some tag⟩] }) ∧
  (∀ s val v, operand val = some v → s.work.curslot = none →
    exec (field val) s = .next { s with logq := s.logq ++ [⟨.noSlot, some code, some tag⟩] }) ∧
  (∀ s val v slot, operand val = some v → s.work.curslot = some slot → s.params.maxSlots ≤ slot →
    exec (field val) s = .next { s with logq := s.logq ++ [⟨.slotRange, some code, some tag⟩] }) ∧
  (∀ s val v slot, operand val = some v → s.work.curslot = some slot → slot < s.params.maxSlots →
    ∃ f, (∀ k, slotGet f k = if k = slot then some v else slotGet (file s.dev) k) ∧
      exec (field val) s = .next { s with dev := update f s.dev })

/-- A read of a per-slot register (R53, R85): below `MAX_SLOTS` what its file holds for the slot, at or beyond it no
register, answered `absent` (log 17). -/
def SlotReads {α : Type} (reg : Nat → HostReg) (view : Option α → HostVal) (file : DeviceModel → SlotFile α) : Prop :=
  ∀ s slot, (slot < s.params.maxSlots → readReg s (reg slot) = view (slotGet (file s.dev) slot)) ∧
    (s.params.maxSlots ≤ slot → readReg s (reg slot) = .absent)

/-- A field that is logged as an unknown tag and otherwise does nothing (R219, R235, R236, R248). -/
def LoggedOnly (i : Instr) (code : U16) (tag : Byte) : Prop :=
  ∀ s, exec i s = .next { s with logq := s.logq ++ [⟨.unknownTag, some code, some tag⟩] }

end Sys2Proof.Machine
end

