-- ==== Sys2Proof/Certificates/Slice0/Obligations.lean ====
section
/-! DEFINITION. The statements for the provers, from the numbered rules of spec/. Each docstring names the
rule or section it formalises. -/

open Sys2Proof Sys2Proof.Machine

/-! ## Encodings -/

/-- Decode of encode is the instruction, for every well-formed instruction and whatever bytes follow (R110,
R111, R112, R115, R121, R122). -/
def Obligations.DecodeOfEncodeIsTheInstruction : Prop :=
  ∀ i rest, i.wf = true → decode i.level (encode i ++ rest) = .ok (i, rest)

/-- Encode of decode is the bytes: what the decoder accepts is a well-formed instruction of that level whose
bytes, followed by the rest, are the bytes decoded. -/
def Obligations.EncodeOfDecodeIsTheBytes : Prop :=
  ∀ level bytes i rest, decode level bytes = .ok (i, rest) →
    i.wf = true ∧ i.level = level ∧ encode i ++ rest = bytes

/-- A few words written out from R111, R112, R121, R122 decode to the instructions they stand for. -/
def Obligations.WordsDecodeAsWrittenOut : Prop :=
  decode .stream [0x5A#8, 0x11#8] = .ok (.byteStart, [0x11#8]) ∧
  decode .stream [0x5B#8] = .ok (.byteEnd, []) ∧
  decode .escape [0x5C#8, 0x9A#8, 0x16#8] = .ok (.escPair 0x9A#8, [0x16#8]) ∧
  decode .frame [0x0A#8, 0xDA#8] = .ok (.status, []) ∧
  decode .frame [0x03#8, 0xDA#8] = .ok (.frameUnknown 0xDA03#16, []) ∧
  decode (.field 0xDA07#16) [0x26#8, 0x04#8, 0x88#8, 0x13#8, 0x00#8, 0x00#8, 0x5B#8] =
    .ok (.settingsMinlap [0x88#8, 0x13#8, 0x00#8, 0x00#8], [0x5B#8]) ∧
  decode (.field 0xDA0A#16) [0x21#8, 0x04#8, 0x3C#8, 0x0D#8, 0x5B#8] = .error (.truncatedField 0x21#8)

/-- The decoder gives the row that R123 selects: of the rows that match the dispatch word, the one with the
most mask bits; and the table has 54 rows. -/
def Obligations.DecoderFollowsTheOpcodeTable : Prop :=
  opcodeTable.length = 54 ∧
  (∀ b : Byte, (selectRow .byte b.toNat).map OpRow.mnemonic = some (streamInstr b).mnemonic) ∧
  (∀ x : Byte, (selectRow .escpair (0x5C * 256 + x.toNat)).map OpRow.mnemonic = some (Instr.escPair x).mnemonic) ∧
  (∀ code : U16, (selectRow .frame code.toNat).map OpRow.mnemonic = some (frameInstrOfCode code).mnemonic) ∧
  (∀ (r : RecordType) (tag : Byte) (val : List Byte),
    (selectRow .tlv (r.code.toNat * 256 + tag.toNat)).map OpRow.mnemonic = some (fieldInstr r tag val).mnemonic)

/-! ## Operands -/

/-- Integer operands (R225): little-endian at widths 1, 2, 4 and 8, zero-extended to 64 bits; no operand at
any other width. Float operands (R226): the 32-bit pattern of exactly four bytes, every pattern accepted
unchanged. -/
def Obligations.OperandsByKindAndWidth : Prop :=
  (∀ a : Byte, uintVal [a] = some (a.zeroExtend 64)) ∧
  (∀ a b : Byte, uintVal [a, b] = some ((b ++ a).zeroExtend 64)) ∧
  (∀ a b c d : Byte, uintVal [a, b, c, d] = some ((d ++ c ++ b ++ a).zeroExtend 64)) ∧
  (∀ a b c d e f g h : Byte, uintVal [a, b, c, d, e, f, g, h] = some (h ++ g ++ f ++ e ++ d ++ c ++ b ++ a)) ∧
  (∀ val : List Byte, val.length ≠ 1 → val.length ≠ 2 → val.length ≠ 4 → val.length ≠ 8 → uintVal val = none) ∧
  (∀ a b c d : Byte, f32Val [a, b, c, d] = some (d ++ c ++ b ++ a)) ∧
  (∀ val : List Byte, val.length ≠ 4 → f32Val val = none)

/-- The slot operand (R227), not bounded by `MAX_SLOTS`, and its inverse (R294), for every model slot whose wire
index fits the 64-bit operand. -/
def Obligations.SlotConversion : Prop :=
  slotFromWire 0 = 0 ∧ slotFromWire 1 = 0 ∧
  (∀ w : U64, 1 ≤ w.toNat → slotFromWire w = w.toNat - 1) ∧
  (∀ s : Nat, wireSlot s = s + 1) ∧
  (∀ s : Nat, s + 1 < 2 ^ 64 → slotFromWire (BitVec.ofNat 64 (wireSlot s)) = s) ∧
  (∀ w : U64, 1 ≤ w.toNat → wireSlot (slotFromWire w) = w.toNat) ∧
  wireSlot (slotFromWire 0) = 1

/-- `GateDecode` (R252), for an injective code map: the state whose code is v, and idle when no state's is; the
two fields that use it keep the wire value in `GATE_RAW`. -/
def Obligations.GateDecodeInvertsTheCodeMap : Prop :=
  ∀ p : Params, p.wf = true →
    (∀ (g : Gate) (v : U64), v.toNat = (p.gateCode.code g).toNat → gateDecode p.gateCode v = g) ∧
    (∀ v : U64, (∀ g, (p.gateCode.code g).toNat ≠ v.toNat) → gateDecode p.gateCode v = .idle) ∧
    (∀ (s : State) (val : List Byte) (v : U64), uintVal val = some v →
      (∃ t, exec (.statectlGate val) s = .next t ∧ t.dev.gateRaw = some v) ∧
      (∃ t, exec (.statusGate val) s = .next t ∧ t.dev.gateRaw = some v))

/-- What `TlvInt` encodes, the decoder reads back with the same value (R291, R225), in a frame of any record. -/
def Obligations.EncodedIntegersReadBack : Prop :=
  ∀ (r : RecordType) (tag : Byte) (w v : Nat) (bytes rest : List Byte), tlvInt tag w v = some bytes →
    ∃ val, decode (.field r.code) (bytes ++ rest) = .ok (fieldInstr r tag val, rest) ∧
      uintVal val = some (BitVec.ofNat 64 v)

/-- The field encoders (R291, R292, R293): tag, length, value bytes least significant first; a width that is none
of 1, 2, 4, 8, a value that does not fit, and more than 255 bytes are refused. -/
def Obligations.FieldEncodersProduceTheirBytes : Prop :=
  (∀ (tag : Byte) (w v : Nat), w ∈ [1, 2, 4, 8] → v < 2 ^ (8 * w) →
    ∃ bytes, tlvInt tag w v = some (tag :: BitVec.ofNat 8 w :: bytes) ∧ bytes.length = w ∧ uintLE bytes = v) ∧
  (∀ (tag : Byte) (w v : Nat), w ∉ [1, 2, 4, 8] ∨ 2 ^ (8 * w) ≤ v → tlvInt tag w v = none) ∧
  (∀ tag a b c d : Byte, tlvF32 tag (d ++ c ++ b ++ a) = [tag, 0x04#8, a, b, c, d]) ∧
  (∀ (tag : Byte) (bytes : List Byte), bytes.length ≤ 255 →
    tlvRaw tag bytes = some (tag :: BitVec.ofNat 8 bytes.length :: bytes)) ∧
  (∀ (tag : Byte) (bytes : List Byte), 255 < bytes.length → tlvRaw tag bytes = none)

/-! ## Stream bytes and the escape pair -/

/-- The stream byte classes (R192, R194 to R197). In HUNT, START opens a candidate and every other byte is
discarded; in COLLECT, START, ESC and data bytes are appended, and END completes the candidate, whose decode
begins with every frame-local register `none` (R221). -/
def Obligations.StreamBytesByExtractorState : Prop :=
  (∀ s, s.rxbuf = [] →
    (Room s → exec .byteStart s = .next { s with rxbuf := [0x5A#8] }) ∧
    exec .byteEnd s = .next s ∧
    exec .byteEsc s = .next s ∧
    (∀ b, exec (.byteData b) s = .next s)) ∧
  (∀ s, s.rxbuf ≠ [] → Room s →
    exec .byteStart s = .next { s with rxbuf := s.rxbuf ++ [0x5A#8] } ∧
    exec .byteEsc s = .next { s with rxbuf := s.rxbuf ++ [0x5C#8] } ∧
    (∀ b, exec (.byteData b) s = .next { s with rxbuf := s.rxbuf ++ [b] }) ∧
    exec .byteEnd s = .next { s with
      rxbuf := []
      phase := .unescape
      work := { frm := s.rxbuf ++ [0x5B#8], fcur := s.rxbuf ++ [0x5B#8], u := [], p := [], rtype := 0,
                curslot := none, pb := ⟨none, none, none, none, none, none⟩, lastrec := none } })

/-- A byte beyond `BUF_CAP` (R198, R323): the fault register, one log entry, `RXBUF` kept, the rest of the
chunk lost and the operation ended. The reply that reports it is the model's choice (log 14). -/
def Obligations.AppendBeyondCapacityIsFatal : Prop :=
  ∀ s cap, s.params.bufCap = some cap → cap ≤ s.rxbuf.length →
    let t : State := { s with
      faultReg := .bufOverflow, logq := s.logq ++ [⟨.bufOverflow, none, none⟩],
      chunk := [], phase := .idle, replies := s.replies ++ [.aborted] }
    exec .byteStart s = .next t ∧
    (s.rxbuf ≠ [] → exec .byteEnd s = .next t ∧ exec .byteEsc s = .next t ∧ ∀ b, exec (.byteData b) s = .next t)

/-- The escape pair (R112, R172): the byte after ESC is consumed whatever its value and yields that byte less
0x40, modulo 256. -/
def Obligations.EscapePairYieldsByteLessOffset : Prop :=
  (∀ (x : Byte) (rest : List Byte), decode .escape (0x5C#8 :: x :: rest) = .ok (.escPair x, rest)) ∧
  ∀ (x : Byte) s, exec (.escPair x) s =
    .next { s with work := { s.work with u := s.work.u ++ [BitVec.ofNat 8 ((x.toNat + 256 - 0x40) % 256)] } }

/-! ## Frames -/

/-- A recognised frame instruction latches its record type and starts the walk at offset 7 (R211, R213). -/
def Obligations.RecognisedFramesStartTheWalk : Prop :=
  ∀ (s : State),
    let walks := fun code : U16 => { s with phase := .walk, work := { s.work with rtype := code, p := s.work.u.drop 7 } }
    exec .rssi s = .next (walks 0xDA01#16) ∧
    exec .rfsetup s = .next (walks 0xDA02#16) ∧
    exec .statectl s = .next (walks 0xDA04#16) ∧
    exec .settings s = .next (walks 0xDA07#16) ∧
    exec .desc s = .next (walks 0xDA08#16) ∧
    exec .passing s = .next (walks 0xDA09#16) ∧
    exec .status s = .next (walks 0xDA0A#16) ∧
    exec .time s = .next (walks 0xDA0C#16) ∧
    exec .error s = .next (walks 0xFFFF#16)

/-- A frame of unrecognised type (R124, R314): every code that is none of the nine is one, and such a frame is
dropped with one log entry that holds the code; no outcome, no register, no field walked. -/
def Obligations.UnknownFrameIsDropped : Prop :=
  (∀ code : U16, code ∉ [0xDA01#16, 0xDA02#16, 0xDA04#16, 0xDA07#16, 0xDA08#16, 0xDA09#16, 0xDA0A#16, 0xDA0C#16,
    0xFFFF#16] → frameInstrOfCode code = .frameUnknown code) ∧
  ∀ (rtype : U16) s, exec (.frameUnknown rtype) s = .next { s with
    logq := s.logq ++ [⟨.unknownType, some rtype, none⟩], work := Work.empty, phase := .scan }

/-- The checks of a frame in their fixed order (R207, R208, R209, R324): the first cause that applies drops
the frame, logging the cause alone. -/
def Obligations.FrameChecksDropInOrder : Prop :=
  ∀ s, s.phase = .check →
    let dropped := fun cause : Cause => { s with
      logq := s.logq ++ [⟨cause, none, none⟩], work := Work.empty, phase := .scan }
    (s.work.u.length < 8 → step s = .next (dropped .tooShort)) ∧
    (8 ≤ s.work.u.length → s.work.u.head? ≠ some 0x5A#8 → step s = .next (dropped .badStart)) ∧
    (8 ≤ s.work.u.length → s.work.u.head? = some 0x5A#8 →
      crc16 s.crctab ((s.work.u.set 3 0).set 4 0) ≠ u16le (s.work.u.getD 3 0) (s.work.u.getD 4 0) →
      step s = .next (dropped .crcMismatch))

/-- A frame that passes the checks runs the instruction of its record type with the CRC field zeroed (R209,
R211, R212); the declared length plays no part (R210). -/
def Obligations.CheckedFrameRunsItsType : Prop :=
  ∀ s lenLo lenHi crcLo crcHi typeLo typeHi rest, s.phase = .check →
    s.work.u = 0x5A#8 :: lenLo :: lenHi :: crcLo :: crcHi :: typeLo :: typeHi :: rest → rest ≠ [] →
    crc16 s.crctab (0x5A#8 :: lenLo :: lenHi :: 0#8 :: 0#8 :: typeLo :: typeHi :: rest) = u16le crcLo crcHi →
    step s = exec (frameInstrOfCode (u16le typeLo typeHi)) { s with
      work := { s.work with u := 0x5A#8 :: lenLo :: lenHi :: 0#8 :: 0#8 :: typeLo :: typeHi :: rest } }

/-! ## The TLV fields -/

/-- The fields of the RSSI record (R231 to R236). -/
def Obligations.RssiFieldEffects : Prop :=
  IntFieldDoes .rssiSlot 0xDA01#16 0x01#8
    (fun v s => { s with work := { s.work with curslot := some (slotFromWire v) } }) ∧
  SlotFieldDoes .rssiMin 0xDA01#16 0x20#8 f32Val (·.rssiMin) (fun f d => { d with rssiMin := f }) ∧
  SlotFieldDoes .rssiMax 0xDA01#16 0x21#8 f32Val (·.rssiMax) (fun f d => { d with rssiMax := f }) ∧
  SlotFieldDoes .rssiMean 0xDA01#16 0x22#8 f32Val (·.rssiMean) (fun f d => { d with rssiMean := f }) ∧
  (∀ val, LoggedOnly (.rssiX23 val) 0xDA01#16 0x23#8) ∧
  (∀ val, LoggedOnly (.rssiX26 val) 0xDA01#16 0x26#8)

/-- The fields of the RF-Setup record (R238 to R244). -/
def Obligations.RfSetupFieldEffects : Prop :=
  IntFieldDoes .rfsetupSlot 0xDA02#16 0x01#8
    (fun v s => { s with work := { s.work with curslot := some (slotFromWire v) } }) ∧
  SlotFieldDoes .rfsetupEnabled 0xDA02#16 0x20#8 uintVal (·.rfEnabled) (fun f d => { d with rfEnabled := f }) ∧
  SlotFieldDoes .rfsetupChannel 0xDA02#16 0x21#8 uintVal (·.rfChannel) (fun f d => { d with rfChannel := f }) ∧
  SlotFieldDoes .rfsetupBand 0xDA02#16 0x22#8 uintVal (·.rfBand) (fun f d => { d with rfBand := f }) ∧
  SlotFieldDoes .rfsetupThreshold 0xDA02#16 0x23#8 f32Val (·.rfThreshold) (fun f d => { d with rfThreshold := f }) ∧
  SlotFieldDoes .rfsetupGain 0xDA02#16 0x24#8 uintVal (·.rfGain) (fun f d => { d with rfGain := f }) ∧
  SlotFieldDoes .rfsetupFreq 0xDA02#16 0x25#8 uintVal (·.rfFreq) (fun f d => { d with rfFreq := f })

/-- The gate-state fields of the State-Control and Status records (R246, R275) write the raw value and its
decoding (R252); the fields of the Settings record (R248, R249). -/
def Obligations.GateAndSettingsFieldEffects : Prop :=
  IntFieldDoes .statectlGate 0xDA04#16 0x20#8 (fun v s =>
    { s with dev := { s.dev with gateRaw := some v, gateState := some (gateDecode s.params.gateCode v) } }) ∧
  IntFieldDoes .statusGate 0xDA0A#16 0x23#8 (fun v s =>
    { s with dev := { s.dev with gateRaw := some v, gateState := some (gateDecode s.params.gateCode v) } }) ∧
  (∀ val, LoggedOnly (.settingsStatusint val) 0xDA07#16 0x22#8) ∧
  IntFieldDoes .settingsMinlap 0xDA07#16 0x26#8 (fun v s => { s with dev := { s.dev with minLapTime := some v } })

/-- The fields of the Status record but its gate state (R271 to R274, R276). -/
def Obligations.StatusFieldEffects : Prop :=
  IntFieldDoes .statusSlot 0xDA0A#16 0x01#8
    (fun v s => { s with work := { s.work with curslot := some (slotFromWire v) } }) ∧
  IntFieldDoes .statusFlags 0xDA0A#16 0x03#8 (fun v s => { s with dev := { s.dev with statusFlags := some v } }) ∧
  IntFieldDoes .statusBatt 0xDA0A#16 0x21#8 (fun v s => { s with dev := { s.dev with battMv := some v } }) ∧
  SlotFieldDoes .statusLastrssi 0xDA0A#16 0x22#8 f32Val (·.rssiLast) (fun f d => { d with rssiLast := f }) ∧
  IntFieldDoes .statusDetect 0xDA0A#16 0x24#8 (fun v s => { s with dev := { s.dev with detectCount := some v } })

/-- The builder fields of the Passing record (R262, R264 to R267). -/
def Obligations.PassingBuilderFieldEffects : Prop :=
  IntFieldDoes .passingSlot 0xDA09#16 0x01#8 (fun v s => { s with work := { s.work with
    curslot := some (slotFromWire v), pb := { s.work.pb with pilotId := some (slotFromWire v) } } }) ∧
  IntFieldDoes .passingDecoder 0xDA09#16 0x20#8
    (fun v s => { s with work := { s.work with pb := { s.work.pb with decoderId := some v } } }) ∧
  IntFieldDoes .passingNumber 0xDA09#16 0x21#8
    (fun v s => { s with work := { s.work with pb := { s.work.pb with passingNumber := some v } } }) ∧
  IntFieldDoes .passingPeak 0xDA09#16 0x22#8
    (fun v s => { s with work := { s.work with pb := { s.work.pb with peakHeight := some v } } }) ∧
  IntFieldDoes .passingFlags 0xDA09#16 0x23#8
    (fun v s => { s with work := { s.work with pb := { s.work.pb with flags := some v } } })

/-- The commit (R263, R269): the record, with its local time when a correlation has happened, is appended and
remembered, and the builder is cleared; `RTC_TIME` is not touched (R278). -/
def Obligations.PassingRtcCommitsTheRecord : Prop :=
  IntFieldDoes .passingRtc 0xDA09#16 0x02#8 (fun v s =>
    let r : PassingRecord :=
      { pilotId := s.work.pb.pilotId, passingNumber := s.work.pb.passingNumber, rtcTime := some v
        decoderId := s.work.pb.decoderId, peakHeight := s.work.pb.peakHeight, flags := s.work.pb.flags
        localTime := s.dev.rtcLocalSeconds.map (· + (v.toNat : Rat) / s.params.rtcTicksPerSecond) }
    { s with
      dev := { s.dev with passing := s.dev.passing ++ [r] }
      work := { s.work with lastrec := some r, pb := ⟨none, none, none, none, none, none⟩ } })

/-- The fields of the Time record (R278, R279, R281, R282): `RTC_TIME` takes the operand, and with a
request pending since t0 the local-clock correlation is the midpoint of the round trip less the device time, and the
request is consumed. The midpoint form is the spec's own inference from R281. -/
def Obligations.TimeFieldEffects : Prop :=
  IntFieldDoes .timeRtc 0xDA0C#16 0x02#8 (fun v s => { s with dev := { s.dev with
    rtcTime := some v
    rtcLocalSeconds := match s.dev.rtcReqAt with
      | none => s.dev.rtcLocalSeconds
      | some t0 => some ((s.now + t0) / 2 - (v.toNat : Rat) / s.params.rtcTicksPerSecond)
    rtcReqAt := none } }) ∧
  IntFieldDoes .timeTrt 0xDA0C#16 0x20#8 (fun v s => { s with dev := { s.dev with timeRtcTime := some v } })

/-- The order of a passing frame's fields matters (R268 (b), R361): pilot-id and then rtc-time appends one
record with both; rtc-time before pilot-id appends one record without the pilot-id, and the late pilot-id
changes no record. -/
def Obligations.PassingCommitDependsOnFieldOrder : Prop :=
  ∀ s slotVal rtcVal w v, uintVal slotVal = some w → uintVal rtcVal = some v →
    s.work.pb = ⟨none, none, none, none, none, none⟩ → s.dev.rtcLocalSeconds = none →
    (dispatchField .passing (dispatchField .passing s (0x01#8, slotVal)) (0x02#8, rtcVal)).dev.passing =
      s.dev.passing ++ [⟨some (slotFromWire w), none, some v, none, none, none, none⟩] ∧
    (dispatchField .passing (dispatchField .passing s (0x02#8, rtcVal)) (0x01#8, slotVal)).dev.passing =
      s.dev.passing ++ [⟨none, none, some v, none, none, none, none⟩]

/-- Unknown tags are logged and skipped (R125, R219); every tag of a Descriptor or Error frame is passed over
silently (R251, R284). -/
def Obligations.UnknownAndIgnoredTags : Prop :=
  ∀ (tag : Byte) (val : List Byte),
    LoggedOnly (.rssiUnknown tag val) 0xDA01#16 tag ∧
    LoggedOnly (.rfsetupUnknown tag val) 0xDA02#16 tag ∧
    LoggedOnly (.statectlUnknown tag val) 0xDA04#16 tag ∧
    LoggedOnly (.settingsUnknown tag val) 0xDA07#16 tag ∧
    LoggedOnly (.passingUnknown tag val) 0xDA09#16 tag ∧
    LoggedOnly (.statusUnknown tag val) 0xDA0A#16 tag ∧
    LoggedOnly (.timeUnknown tag val) 0xDA0C#16 tag ∧
    (∀ s, exec (.descAny tag val) s = .next s) ∧
    (∀ s, exec (.errorAny tag val) s = .next s)

/-- The frame of every TLV field: whatever it does, it leaves alone the parameters, the engine, `CRCTAB`,
`RXBUF`, the frame being decoded, `EVQ`, `FAULT` and the host's side; the Device Model changes only if nothing is
logged, and at most one entry is logged (R220, R321, R324). -/
def Obligations.FieldsLeaveTheRestAlone : Prop :=
  ∀ (i : Instr) (s : State), i.field.isSome = true → ∃ t, exec i s = .next t ∧
    t.params = s.params ∧ t.eng = s.eng ∧ t.crctab = s.crctab ∧ t.rxbuf = s.rxbuf ∧
    t.work.frm = s.work.frm ∧ t.work.fcur = s.work.fcur ∧ t.work.u = s.work.u ∧ t.work.p = s.work.p ∧
    t.work.rtype = s.work.rtype ∧ t.evq = s.evq ∧ t.faultReg = s.faultReg ∧ t.phase = s.phase ∧
    t.chunk = s.chunk ∧ t.now = s.now ∧ t.hostq = s.hostq ∧ t.replies = s.replies ∧
    (t.logq = s.logq ∨ (t.dev = s.dev ∧ t.work = s.work ∧ ∃ e, t.logq = s.logq ++ [e]))

/-- Which registers a record's fields may write: the fields of one record leave every register of the others
alone (the tag map R122: RSSI 0x20 is not RF-Setup 0x20). -/
def Obligations.FieldsWriteOnlyTheirRecordsRegisters : Prop :=
  ∀ (i : Instr) (s t : State) (r : RecordType) (tag : Byte) (val : List Byte),
    i.field = some (r, tag, val) → exec i s = .next t →
    (r ≠ .rfsetup → t.dev.rfEnabled = s.dev.rfEnabled ∧ t.dev.rfChannel = s.dev.rfChannel ∧
      t.dev.rfBand = s.dev.rfBand ∧ t.dev.rfThreshold = s.dev.rfThreshold ∧ t.dev.rfGain = s.dev.rfGain ∧
      t.dev.rfFreq = s.dev.rfFreq) ∧
    (r ≠ .rssi → t.dev.rssiMin = s.dev.rssiMin ∧ t.dev.rssiMax = s.dev.rssiMax ∧ t.dev.rssiMean = s.dev.rssiMean) ∧
    (r ≠ .status → t.dev.rssiLast = s.dev.rssiLast ∧ t.dev.battMv = s.dev.battMv ∧
      t.dev.detectCount = s.dev.detectCount ∧ t.dev.statusFlags = s.dev.statusFlags) ∧
    (r ≠ .status → r ≠ .statectl → t.dev.gateState = s.dev.gateState ∧ t.dev.gateRaw = s.dev.gateRaw) ∧
    (r ≠ .settings → t.dev.minLapTime = s.dev.minLapTime) ∧
    (r ≠ .passing → t.dev.passing = s.dev.passing ∧ t.work.pb = s.work.pb ∧ t.work.lastrec = s.work.lastrec) ∧
    (r ≠ .time → t.dev.rtcTime = s.dev.rtcTime ∧ t.dev.rtcLocalSeconds = s.dev.rtcLocalSeconds ∧
      t.dev.rtcReqAt = s.dev.rtcReqAt ∧ t.dev.timeRtcTime = s.dev.timeRtcTime) ∧
    (r = .statectl ∨ r = .settings ∨ r = .desc ∨ r = .time ∨ r = .error → t.work.curslot = s.work.curslot)

/-! ## Steps -/

/-- A step runs the decoded instruction, at each of the four levels, with the bytes it was decoded from removed
(R192, R171, R211, R217). -/
def Obligations.StepRunsTheDecodedInstruction : Prop :=
  (∀ s i rest, s.phase = .scan → decode .stream s.chunk = .ok (i, rest) →
    step s = exec i { s with chunk := rest }) ∧
  (∀ s i rest, s.phase = .unescape → decode .escape s.work.fcur = .ok (i, rest) →
    step s = exec i { s with work := { s.work with fcur := rest } }) ∧
  (∀ s i rest, s.phase = .check → judgeFrame s.crctab s.work.u = none →
    decode .frame ((zeroCrcField s.work.u).drop 5) = .ok (i, rest) →
    step s = exec i { s with work := { s.work with u := zeroCrcField s.work.u } }) ∧
  (∀ s i rest, s.phase = .walk → 3 < s.work.p.length → decode (.field s.work.rtype) s.work.p = .ok (i, rest) →
    step s = exec i { s with work := { s.work with p := rest } })

/-- The end of the walk (R214, R222, R223): with 3 or fewer bytes left, whatever they are, exactly one outcome
is emitted and the working state is discarded. -/
def Obligations.WalkEndsWithOneOutcome : Prop :=
  ∀ s, s.phase = .walk → s.work.p.length ≤ 3 → step s = .next { s with
    evq := s.evq ++ [⟨s.work.rtype, s.work.curslot, s.work.lastrec⟩], work := Work.empty, phase := .scan }

/-- A field of the walk (R215, R216, R217, R315). Its declared length exceeds the bytes that remain after tag and
length, the END byte counted: the frame is dropped, with one log entry of record type and tag, no outcome, nothing
undone, whatever the tag and the record. Otherwise, a length of exactly the remaining bytes included, the value is
cut off and the field runs with the cursor moved past it. -/
def Obligations.FieldIsCutOrTruncated : Prop :=
  ∀ s (tag len : Byte) rest, s.phase = .walk → s.work.p = tag :: len :: rest → 2 ≤ rest.length →
    (rest.length < len.toNat → step s = .next { s with
      logq := s.logq ++ [⟨.truncatedTlv, some s.work.rtype, some tag⟩], work := Work.empty, phase := .scan }) ∧
    (∀ r : RecordType, s.work.rtype = r.code → len.toNat ≤ rest.length →
      step s = exec (fieldInstr r tag (rest.take len.toNat)) { s with work := { s.work with p := rest.drop len.toNat } })

/-- The three cases of `Unescape` (R171, R173): a pair yields one byte and is consumed, a dangling ESC yields
nothing, any other byte passes through. -/
def Obligations.UnescapeByCases : Prop :=
  unescape [] = [] ∧
  unescape [0x5C#8] = [] ∧
  (∀ (x : Byte) (rest : List Byte), unescape (0x5C#8 :: x :: rest) =
    BitVec.ofNat 8 ((x.toNat + 256 - 0x40) % 256) :: unescape rest) ∧
  (∀ (b : Byte) (rest : List Byte), b ≠ 0x5C#8 → unescape (b :: rest) = b :: unescape rest)

/-- `Unescape` of a whole candidate, byte by byte (R171, R206): the decode of a candidate comes to the checks
with `U = Unescape(FRM)` and nothing else changed. -/
def Obligations.CandidateIsUnescapedBeforeItIsChecked : Prop :=
  ∀ s frm, RunsTo (beginFrame frm s)
    { s with phase := .check, work := { Work.empty with frm := frm, u := unescape frm } }

/-- The step machine computes `DecodeFrame` (R205): from the start of any candidate's decode it runs to the
state the pseudocode gives, back in the extractor. -/
def Obligations.DecodeFrameRunsAsThePseudocode : Prop :=
  ∀ s frm, RunsTo (beginFrame frm s) { decodeFrameSpec frm s with phase := .scan }

/-- One outcome per frame that passes every step, none for a dropped frame (R223), and what the log and the Device
Model hold afterwards (R207 to R210, R212, R216, R220, R320, R321), for `DecodeFrame` of any candidate in any state. A
frame that fails a check, or whose type is none of the nine, is dropped: `EVQ` and the Device Model as before, one log
entry appended, nothing else. Otherwise its fields are applied in order, each appending at most skip entries of its
record type; a truncated field then drops the frame with its log entry and no outcome, and what the fields before it
wrote stays; without one, exactly the outcome (RTYPE, CURSLOT, LASTREC) is appended. -/
def Obligations.OneOutcomePerAcceptedFrame : Prop :=
  ∀ s frm,
    let u := unescape frm
    let d := decodeFrameSpec frm s
    let code := u16le (u.getD 5 0) (u.getD 6 0)
    let crcGood : Prop := crc16 s.crctab ((u.set 3 0).set 4 0) = u16le (u.getD 3 0) (u.getD 4 0)
    let dropped := fun e : LogEntry => d.evq = s.evq ∧ d.dev = s.dev ∧ d.logq = s.logq ++ [e]
    (u.length < 8 → dropped ⟨.tooShort, none, none⟩) ∧
    (8 ≤ u.length → u.head? ≠ some 0x5A#8 → dropped ⟨.badStart, none, none⟩) ∧
    (8 ≤ u.length → u.head? = some 0x5A#8 → ¬ crcGood → dropped ⟨.crcMismatch, none, none⟩) ∧
    (8 ≤ u.length → u.head? = some 0x5A#8 → crcGood → code ∉ [0xDA01#16, 0xDA02#16, 0xDA04#16, 0xDA07#16, 0xDA08#16,
      0xDA09#16, 0xDA0A#16, 0xDA0C#16, 0xFFFF#16] → dropped ⟨.unknownType, some code, none⟩) ∧
    (8 ≤ u.length → u.head? = some 0x5A#8 → crcGood → ∀ r : RecordType, code = r.code →
      let fields := splitFields u.length (u.drop 7)
      let t := fields.1.foldl (dispatchField r) { s with work := Work.empty }
      d.dev = t.dev ∧
      ∃ skips : List LogEntry,
        (∀ e ∈ skips, e.cause ∈ [.unknownTag, .badWidth, .noSlot, .slotRange] ∧ e.rtype = some code ∧
          ∃ f ∈ fields.1, e.tag = some f.1) ∧
        (∀ tag, fields.2 = some tag →
          d.evq = s.evq ∧ d.logq = s.logq ++ skips ++ [⟨.truncatedTlv, some code, some tag⟩]) ∧
        (fields.2 = none →
          d.evq = s.evq ++ [⟨code, t.work.curslot, t.work.lastrec⟩] ∧ d.logq = s.logq ++ skips))

/-- `Ingest` is `Extract` over the whole buffer (R185, R186, R192), under every `BUF_CAP` (R198 in its whole-buffer
form, R323): from a sound state that is not refusing, the operation runs to the state the pseudocode gives and returns,
`done`, or `aborted` where the capacity was exceeded: the frames completed before that are decoded, `RXBUF` keeps
`BUF_CAP` bytes. With `BUF_CAP` infinite the extraction is that of R186 and never overflows. The replies are the
model's choice (log 14); that a capacity of 0 refuses the opening START is read from R198 (log 12, DEDUCED). -/
def Obligations.IngestRunsAsExtract : Prop :=
  (∀ s chunk now rest, Sound s → s.phase = .idle → s.faultReg = .none → s.hostq = .ingest chunk now :: rest →
    let t := ingestSpec chunk now { s with eng := .ready, hostq := rest }
    RunsTo s { t with
      phase := .idle, chunk := [],
      replies := s.replies ++ [if t.faultReg = .none then .done else .aborted] }) ∧
  (∀ n buf, extractCapped none n buf = ((extractSpec n buf).1, (extractSpec n buf).2, false))

/-- A direct `DecodeFrame` of any byte sequence (R205, R298) runs to the state the pseudocode gives and returns;
`RXBUF` keeps its partial frame. The clock reading it carries is the model's choice (log 11). -/
def Obligations.DirectDecodeFrameRuns : Prop :=
  ∀ s frm now rest, Sound s → s.phase = .idle → s.faultReg = .none → s.hostq = .decodeFrame frm now :: rest →
    RunsTo s { decodeFrameSpec frm { s with eng := .ready, hostq := rest, now := now } with
      phase := .idle, chunk := [], replies := s.replies ++ [.done] }

/-- Chunking does not matter (R193), overflow included (R198): one `Ingest` of a whole stream and two of its
parts, with the same clock reading, run to states that agree in everything but the number of replies. -/
def Obligations.ChunkingDoesNotMatter : Prop :=
  ∀ s a b now, Sound s → s.phase = .idle → s.hostq = [] →
    ∃ (t : State) (replies replies' : List Reply),
      RunsTo { s with hostq := [.ingest (a ++ b) now] } { t with replies := replies } ∧
      RunsTo { s with hostq := [.ingest a now, .ingest b now] } { t with replies := replies' } ∧
      t.phase = .idle ∧ t.hostq = []

/-! ## The invariant -/

/-- The invariant holds at reset, whatever the open parameters are. -/
def Obligations.ResetStateIsSound : Prop := Sound State.reset

/-- Every step keeps the invariant, in particular R191 (`RXBUF` empty or beginning with START and holding no
END), the capacity bound, the canonical form of the per-slot files, and the constancy of `CRCTAB` (R31). -/
def Obligations.StepKeepsStatesSound : Prop := ∀ s t, Sound s → step s = .next t → Sound t

/-- The block is total (R21, R298): from every sound state the step answers a next state, never a fault and
never a refusal. -/
def Obligations.SoundStatesAlwaysStep : Prop := ∀ s, Sound s → ∃ t, step s = .next t

/-! ## Whole-machine rules -/

/-- No instruction stops (R21): `exec` answers a next state on every instruction in every state. -/
def Obligations.EveryInstructionCompletes : Prop := ∀ (i : Instr) (s : State), ∃ t, exec i s = .next t

/-- Nothing but `Reset` returns a Device Model register to `none` (R54), `RTC_REQ_AT` apart, which the
correlation clears (R281). -/
def Obligations.WrittenRegistersStayWritten : Prop :=
  ∀ s t, step s = .next t → ¬ Performs s .reset →
    (∀ k, (slotGet s.dev.rfEnabled k).isSome → (slotGet t.dev.rfEnabled k).isSome) ∧
    (∀ k, (slotGet s.dev.rfChannel k).isSome → (slotGet t.dev.rfChannel k).isSome) ∧
    (∀ k, (slotGet s.dev.rfBand k).isSome → (slotGet t.dev.rfBand k).isSome) ∧
    (∀ k, (slotGet s.dev.rfThreshold k).isSome → (slotGet t.dev.rfThreshold k).isSome) ∧
    (∀ k, (slotGet s.dev.rfGain k).isSome → (slotGet t.dev.rfGain k).isSome) ∧
    (∀ k, (slotGet s.dev.rfFreq k).isSome → (slotGet t.dev.rfFreq k).isSome) ∧
    (∀ k, (slotGet s.dev.rssiMin k).isSome → (slotGet t.dev.rssiMin k).isSome) ∧
    (∀ k, (slotGet s.dev.rssiMax k).isSome → (slotGet t.dev.rssiMax k).isSome) ∧
    (∀ k, (slotGet s.dev.rssiMean k).isSome → (slotGet t.dev.rssiMean k).isSome) ∧
    (∀ k, (slotGet s.dev.rssiLast k).isSome → (slotGet t.dev.rssiLast k).isSome) ∧
    (s.dev.gateState.isSome → t.dev.gateState.isSome) ∧
    (s.dev.gateRaw.isSome → t.dev.gateRaw.isSome) ∧
    (s.dev.battMv.isSome → t.dev.battMv.isSome) ∧
    (s.dev.detectCount.isSome → t.dev.detectCount.isSome) ∧
    (s.dev.minLapTime.isSome → t.dev.minLapTime.isSome) ∧
    (s.dev.statusFlags.isSome → t.dev.statusFlags.isSome) ∧
    (s.dev.rtcTime.isSome → t.dev.rtcTime.isSome) ∧
    (s.dev.rtcLocalSeconds.isSome → t.dev.rtcLocalSeconds.isSome) ∧
    (s.dev.timeRtcTime.isSome → t.dev.timeRtcTime.isSome)

/-- Append only: passing records (R45) and log entries (R57) are only ever appended, and outcomes leave `EVQ`
only when the host takes one (R329; that taking is an operation of its own is the model's choice, log 16). -/
def Obligations.QueuesOnlyGrow : Prop :=
  ∀ s t, step s = .next t → ¬ Performs s .reset →
    s.dev.passing <+: t.dev.passing ∧ s.logq <+: t.logq ∧
    (s.evq <+: t.evq ∨ (Performs s .takeOutcome ∧ t.evq = s.evq.tail))

/-- A fatal fault is sticky until `Reset` (R58), from every sound state. -/
def Obligations.FaultIsStickyUntilReset : Prop :=
  ∀ s t, Sound s → s.faultReg ≠ .none → step s = .next t → ¬ Performs s .reset → t.faultReg = s.faultReg

/-- While the fault register is set every operation but `Reset` (and a register read) is refused and changes
nothing of the block (R58, R322, R331). That an explicit `Init` is refused is read from R58, since R322 does not list
it (log 15, DEDUCED); that taking an outcome is an operation and is refused (log 16), that reads are not (log 17) and
the reply that reports a refusal (log 14) are the model's choices (DESIGN CHOICE). -/
def Obligations.FaultedBlockRefuses : Prop :=
  ∀ s op rest, s.phase = .idle → s.hostq = op :: rest → s.faultReg ≠ .none → op ≠ .reset →
    (∀ reg, op ≠ .read reg) →
    step s = .next { s with hostq := rest, replies := s.replies ++ [.refused] }

/-- The decoder never writes `RXBUF` (R37, R102) nor the chunk: while a candidate is decoded the stream stands
still. -/
def Obligations.DecodingLeavesTheStreamAlone : Prop :=
  ∀ s t, step s = .next t → s.phase = .unescape ∨ s.phase = .check ∨ s.phase = .walk →
    t.rxbuf = s.rxbuf ∧ t.chunk = s.chunk ∧ t.hostq = s.hostq ∧ t.replies = s.replies

/-- The parameters are constant from Reset to Reset (R353), and so is `CRCTAB` once it is the constructed table (R31,
R158). That the parameters also survive a `Reset` (log 5) and that `Reset` leaves the constructed table in place, one
of the choices R352 gives (log 9), are the model's choices (DESIGN CHOICE). -/
def Obligations.ParametersAndTableNeverChange : Prop :=
  ∀ s t, step s = .next t → t.params = s.params ∧ (s.crctab = crcTable → t.crctab = crcTable)

/-- The only host operation that writes the Device Model, but for `Reset`, is `NoteRtcRequest`, and it writes
`RTC_REQ_AT` alone (R53, R280). -/
def Obligations.HostWritesOnlyTheRequestTime : Prop :=
  ∀ s t, s.phase = .idle → step s = .next t → ¬ Performs s .reset →
    t.dev = s.dev ∨ ∃ at_, Performs s (.noteRtcRequest at_) ∧ t.dev = { s.dev with rtcReqAt := some at_ }

/-! ## Host operations -/

/-- `Reset` (R64, R350): every piece of the block's state to its reset value, also while the fault register is set:
every Device Model register none, in every slot, and `PASSING` empty. That `CRCTAB` is the constructed table after it is
the model's choice (log 9, DESIGN CHOICE): R64 and R352 also allow a table undefined until `Init` builds it. -/
def Obligations.ResetRestoresEveryRegister : Prop :=
  ∀ s rest, s.phase = .idle → s.hostq = .reset :: rest → ∃ t, step s = .next t ∧
    t.eng = .uninit ∧ t.rxbuf = [] ∧ t.faultReg = .none ∧ t.evq = [] ∧ t.logq = [] ∧ t.crctab = crcTable ∧
    t.work.curslot = none ∧ t.work.lastrec = none ∧ t.work.pb = ⟨none, none, none, none, none, none⟩ ∧
    t.dev = {
      rfEnabled := [], rfChannel := [], rfBand := [], rfThreshold := [], rfGain := [], rfFreq := []
      rssiMin := [], rssiMax := [], rssiMean := [], rssiLast := [], passing := []
      gateState := none, gateRaw := none, battMv := none, detectCount := none, minLapTime := none
      statusFlags := none, rtcTime := none, rtcLocalSeconds := none, rtcReqAt := none, timeRtcTime := none } ∧
    (∀ k, slotGet t.dev.rfEnabled k = none ∧ slotGet t.dev.rfChannel k = none ∧ slotGet t.dev.rfBand k = none ∧
      slotGet t.dev.rfThreshold k = none ∧ slotGet t.dev.rfGain k = none ∧ slotGet t.dev.rfFreq k = none ∧
      slotGet t.dev.rssiMin k = none ∧ slotGet t.dev.rssiMax k = none ∧ slotGet t.dev.rssiMean k = none ∧
      slotGet t.dev.rssiLast k = none)

/-- `Init` (R157): from UNINIT the table is built, the self-test passes and the engine is READY; on a READY
engine nothing happens. -/
def Obligations.InitMakesTheEngineReady : Prop :=
  (∀ s rest, s.phase = .idle → s.hostq = .init :: rest → s.faultReg = .none → s.eng = .uninit →
    step s = .next { s with hostq := rest, crctab := crcTable, eng := .ready, replies := s.replies ++ [.done] }) ∧
  (∀ s rest, s.phase = .idle → s.hostq = .init :: rest → s.faultReg = .none → s.eng = .ready →
    step s = .next { s with hostq := rest, replies := s.replies ++ [.done] })

/-- The operations that return at once. A register read has no side effect and is answered whatever `FAULT` holds
(R53, R23), and each register's read is its value, a slot at or beyond `MAX_SLOTS` absent (R85; log 17, DESIGN CHOICE).
`NoteRtcRequest` (R280) stamps the request; taking an outcome answers and removes the oldest, if any (R56, R329; an
operation by log 16, DESIGN CHOICE). `CrcCompute` and `BuildFrame` (R159, R290, R296) return their results and change
nothing of the block but, on first use, the engine; a frame above 65535 bytes is refused (R295; after `Init`, log 28,
DEDUCED). The form of the replies is the model's choice (log 14, DESIGN CHOICE). -/
def Obligations.HostOperationsReturn : Prop :=
  (∀ s rest, s.phase = .idle →
    (∀ reg, s.hostq = .read reg :: rest →
      step s = .next { s with hostq := rest, replies := s.replies ++ [.value (readReg s reg)] }) ∧
    (s.faultReg = .none →
      (∀ at_, s.hostq = .noteRtcRequest at_ :: rest → step s = .next { s with
        hostq := rest, dev := { s.dev with rtcReqAt := some at_ }, replies := s.replies ++ [.done] }) ∧
      (s.hostq = .takeOutcome :: rest →
        (s.evq = [] → step s = .next { s with hostq := rest, replies := s.replies ++ [.outcome none] }) ∧
        (∀ o more, s.evq = o :: more → step s = .next { s with
          hostq := rest, evq := more, replies := s.replies ++ [.outcome (some o)] }))) ∧
    (s.faultReg = .none → s.crctab = crcTable → s.eng ≠ .failed →
      (∀ bytes, s.hostq = .crcCompute bytes :: rest → step s = .next { s with
        hostq := rest, eng := .ready, replies := s.replies ++ [.digest (crc16 crcTable bytes)] }) ∧
      (∀ code fields wire, s.hostq = .buildFrame code fields :: rest → buildFrame crcTable code fields = some wire →
        step s = .next { s with hostq := rest, eng := .ready, replies := s.replies ++ [.frame wire] }) ∧
      (∀ code fields, s.hostq = .buildFrame code fields :: rest → 65527 < fields.length →
        buildFrame crcTable code fields = none ∧
        step s = .next { s with hostq := rest, eng := .ready, replies := s.replies ++ [.refused] }))) ∧
  SlotReads .rfEnabled .int (·.rfEnabled) ∧
  SlotReads .rfChannel .int (·.rfChannel) ∧
  SlotReads .rfBand .int (·.rfBand) ∧
  SlotReads .rfThreshold .pattern (·.rfThreshold) ∧
  SlotReads .rfGain .int (·.rfGain) ∧
  SlotReads .rfFreq .int (·.rfFreq) ∧
  SlotReads .rssiMin .pattern (·.rssiMin) ∧
  SlotReads .rssiMax .pattern (·.rssiMax) ∧
  SlotReads .rssiMean .pattern (·.rssiMean) ∧
  SlotReads .rssiLast .pattern (·.rssiLast) ∧
  (∀ s, readReg s .passing = .records s.dev.passing ∧
    readReg s .gateState = .gate s.dev.gateState ∧
    readReg s .gateRaw = .int s.dev.gateRaw ∧
    readReg s .battMv = .int s.dev.battMv ∧
    readReg s .detectCount = .int s.dev.detectCount ∧
    readReg s .minLapTime = .int s.dev.minLapTime ∧
    readReg s .statusFlags = .int s.dev.statusFlags ∧
    readReg s .rtcTime = .int s.dev.rtcTime ∧
    readReg s .rtcLocalSeconds = .seconds s.dev.rtcLocalSeconds ∧
    readReg s .rtcReqAt = .seconds s.dev.rtcReqAt ∧
    readReg s .timeRtcTime = .int s.dev.timeRtcTime ∧
    readReg s .evq = .outcomes s.evq ∧
    readReg s .logq = .entries s.logq ∧
    readReg s .fault = .fault s.faultReg ∧
    readReg s .eng = .engine s.eng)

/-- The notification of each outcome (R224), and the derived views `XST` (R36), `enabled` (R43) and the
battery voltage (R47). -/
def Obligations.NotificationsAndDerivedViews : Prop :=
  (∀ slot record, notificationOf ⟨0xDA01#16, slot, record⟩ = .rssiUpdated slot) ∧
  (∀ slot record, notificationOf ⟨0xDA02#16, slot, record⟩ = .rfSetupRead slot) ∧
  (∀ slot record, notificationOf ⟨0xDA0C#16, slot, record⟩ = .timeUpdated) ∧
  (∀ slot record, notificationOf ⟨0xDA07#16, slot, record⟩ = .settingsUpdated) ∧
  (∀ slot r, notificationOf ⟨0xDA09#16, slot, some r⟩ = .passingRecordRead r) ∧
  (∀ slot, notificationOf ⟨0xDA09#16, slot, none⟩ = .noOp) ∧
  (∀ slot record, notificationOf ⟨0xDA0A#16, slot, record⟩ = .statusUpdated) ∧
  (∀ code slot record, code ∈ [0xDA04#16, 0xDA08#16, 0xFFFF#16] → notificationOf ⟨code, slot, record⟩ = .noOp) ∧
  (∀ s, xst s = .hunt ↔ s.rxbuf = []) ∧
  (∀ d k v, slotGet d.rfEnabled k = some v → (enabledView d k = some false ↔ v = 0)) ∧
  (∀ d mv, d.battMv = some mv → (batteryVolts d).map (· * 1000) = some (mv.toNat : Rat))

/-! ## CRC -/

/-- The self-test digest (R156). -/
def Obligations.SelfTestDigest : Prop :=
  selfTestVector.length = 61 ∧ crc16 crcTable selfTestVector = 0x1B53#16

/-- The table form equals the bit-serial form, for every byte sequence (R155). -/
def Obligations.TableCrcEqualsBitSerialCrc : Prop :=
  ∀ bytes, crc16 crcTable bytes = crcSerial bytes

/-- Linearity (R161 (b)): for equal-length inputs the digest of the bytewise exclusive or is the exclusive or
of the digests. -/
def Obligations.CrcIsLinear : Prop :=
  ∀ a b : List Byte, a.length = b.length →
    crc16 crcTable (List.zipWith (· ^^^ ·) a b) = crc16 crcTable a ^^^ crc16 crcTable b

/-- A message followed by its digest, least significant byte first, has digest zero (R161 (d)). -/
def Obligations.DigestAppendedGivesZero : Prop :=
  ∀ m, crc16 crcTable (m ++ leBytes (crc16 crcTable m).toNat 2) = 0

/-- Two inputs that differ in exactly one bit have different digests (R161 (c)). -/
def Obligations.SingleBitErrorsAreDetected : Prop :=
  ∀ (m : List Byte) (k : Nat) (j : Nat), k < m.length → j < 8 →
    crc16 crcTable (m.set k (m.getD k 0 ^^^ (1#8 <<< j))) ≠ crc16 crcTable m

/-! ## Escape and construction -/

/-- Round trip (R176), with its side condition: the first byte is not ESC and, when there are two bytes or
more, neither is the last. -/
def Obligations.UnescapeInvertsEscape : Prop :=
  ∀ x : List Byte, x.head? ≠ some 0x5C#8 → (2 ≤ x.length → x.getLast? ≠ some 0x5C#8) → unescape (escape x) = x

/-- An escaped frame holds START only at its first index, END only at its last, and ESC only directly before 0x9A,
0x9B or 0x9C (R178); each byte between takes one or two. -/
def Obligations.EscapedFrameHasNoInnerMarkers : Prop :=
  ∀ inner : List Byte, ∃ mid, escape (0x5A#8 :: inner ++ [0x5B#8]) = 0x5A#8 :: mid ++ [0x5B#8] ∧
    0x5A#8 ∉ mid ∧ 0x5B#8 ∉ mid ∧
    (∀ k, mid[k]? = some 0x5C#8 → mid[k + 1]? ∈ [some 0x9A#8, some 0x9B#8, some 0x9C#8]) ∧ inner.length ≤ mid.length ∧ mid.length ≤ 2 * inner.length

/-- The receive path takes a built frame (R297): for every code and fields of at most 65527 bytes the frame is
built, the extractor cuts exactly it and leaves nothing, also after garbage that holds no START (R187, R190,
90_conflicts C3), and it passes the length, START and CRC checks with its declared length and type in place. -/
def Obligations.BuiltFramesAreReceived : Prop :=
  ∀ (code : U16) (fields : List Byte), fields.length ≤ 65527 → ∃ wire,
    buildFrame crcTable code fields = some wire ∧
    (∀ garbage : List Byte, 0x5A#8 ∉ garbage →
      extractSpec (garbage.length + wire.length + 1) (garbage ++ wire) = ([wire], [])) ∧
    judgeFrame crcTable (unescape wire) = none ∧
    (declaredLength (unescape wire)).toNat = (unescape wire).length ∧
    (unescape wire).drop 5 = codeBytes code ++ fields ++ [0x5B#8]
end

