-- ==== Sys2Proof/Laws/State.lean ====
section
/-! SUPPORT. One lemma per field of the state and per shared update, each true by `rfl`: what the update
writes, and that every other field is unchanged. Later proofs need not unfold a record update. -/

namespace Sys2Proof.Machine

variable (s : State)

@[simp] theorem log_params (c : Cause) (r : Option U16) (t : Option Byte) : (log c r t s).params = s.params := rfl
@[simp] theorem log_eng (c : Cause) (r : Option U16) (t : Option Byte) : (log c r t s).eng = s.eng := rfl
@[simp] theorem log_crctab (c : Cause) (r : Option U16) (t : Option Byte) : (log c r t s).crctab = s.crctab := rfl
@[simp] theorem log_rxbuf (c : Cause) (r : Option U16) (t : Option Byte) : (log c r t s).rxbuf = s.rxbuf := rfl
@[simp] theorem log_work (c : Cause) (r : Option U16) (t : Option Byte) : (log c r t s).work = s.work := rfl
@[simp] theorem log_dev (c : Cause) (r : Option U16) (t : Option Byte) : (log c r t s).dev = s.dev := rfl
@[simp] theorem log_evq (c : Cause) (r : Option U16) (t : Option Byte) : (log c r t s).evq = s.evq := rfl
@[simp] theorem log_logq (c : Cause) (r : Option U16) (t : Option Byte) : (log c r t s).logq = s.logq ++ [⟨c, r, t⟩] := rfl
@[simp] theorem log_faultReg (c : Cause) (r : Option U16) (t : Option Byte) : (log c r t s).faultReg = s.faultReg := rfl
@[simp] theorem log_phase (c : Cause) (r : Option U16) (t : Option Byte) : (log c r t s).phase = s.phase := rfl
@[simp] theorem log_chunk (c : Cause) (r : Option U16) (t : Option Byte) : (log c r t s).chunk = s.chunk := rfl
@[simp] theorem log_now (c : Cause) (r : Option U16) (t : Option Byte) : (log c r t s).now = s.now := rfl
@[simp] theorem log_hostq (c : Cause) (r : Option U16) (t : Option Byte) : (log c r t s).hostq = s.hostq := rfl
@[simp] theorem log_replies (c : Cause) (r : Option U16) (t : Option Byte) : (log c r t s).replies = s.replies := rfl

@[simp] theorem skip_params (c : Cause) (r : RecordType) (t : Byte) : (skip c r t s).params = s.params := rfl
@[simp] theorem skip_eng (c : Cause) (r : RecordType) (t : Byte) : (skip c r t s).eng = s.eng := rfl
@[simp] theorem skip_crctab (c : Cause) (r : RecordType) (t : Byte) : (skip c r t s).crctab = s.crctab := rfl
@[simp] theorem skip_rxbuf (c : Cause) (r : RecordType) (t : Byte) : (skip c r t s).rxbuf = s.rxbuf := rfl
@[simp] theorem skip_work (c : Cause) (r : RecordType) (t : Byte) : (skip c r t s).work = s.work := rfl
@[simp] theorem skip_dev (c : Cause) (r : RecordType) (t : Byte) : (skip c r t s).dev = s.dev := rfl
@[simp] theorem skip_evq (c : Cause) (r : RecordType) (t : Byte) : (skip c r t s).evq = s.evq := rfl
@[simp] theorem skip_logq (c : Cause) (r : RecordType) (t : Byte) : (skip c r t s).logq = s.logq ++ [⟨c, some r.code, some t⟩] := rfl
@[simp] theorem skip_faultReg (c : Cause) (r : RecordType) (t : Byte) : (skip c r t s).faultReg = s.faultReg := rfl
@[simp] theorem skip_phase (c : Cause) (r : RecordType) (t : Byte) : (skip c r t s).phase = s.phase := rfl
@[simp] theorem skip_chunk (c : Cause) (r : RecordType) (t : Byte) : (skip c r t s).chunk = s.chunk := rfl
@[simp] theorem skip_now (c : Cause) (r : RecordType) (t : Byte) : (skip c r t s).now = s.now := rfl
@[simp] theorem skip_hostq (c : Cause) (r : RecordType) (t : Byte) : (skip c r t s).hostq = s.hostq := rfl
@[simp] theorem skip_replies (c : Cause) (r : RecordType) (t : Byte) : (skip c r t s).replies = s.replies := rfl

@[simp] theorem emit_params : (emit s).params = s.params := rfl
@[simp] theorem emit_eng : (emit s).eng = s.eng := rfl
@[simp] theorem emit_crctab : (emit s).crctab = s.crctab := rfl
@[simp] theorem emit_rxbuf : (emit s).rxbuf = s.rxbuf := rfl
@[simp] theorem emit_work : (emit s).work = s.work := rfl
@[simp] theorem emit_dev : (emit s).dev = s.dev := rfl
@[simp] theorem emit_evq : (emit s).evq = s.evq ++ [⟨s.work.rtype, s.work.curslot, s.work.lastrec⟩] := rfl
@[simp] theorem emit_logq : (emit s).logq = s.logq := rfl
@[simp] theorem emit_faultReg : (emit s).faultReg = s.faultReg := rfl
@[simp] theorem emit_phase : (emit s).phase = s.phase := rfl
@[simp] theorem emit_chunk : (emit s).chunk = s.chunk := rfl
@[simp] theorem emit_now : (emit s).now = s.now := rfl
@[simp] theorem emit_hostq : (emit s).hostq = s.hostq := rfl
@[simp] theorem emit_replies : (emit s).replies = s.replies := rfl

@[simp] theorem endFrame_params : (endFrame s).params = s.params := rfl
@[simp] theorem endFrame_eng : (endFrame s).eng = s.eng := rfl
@[simp] theorem endFrame_crctab : (endFrame s).crctab = s.crctab := rfl
@[simp] theorem endFrame_rxbuf : (endFrame s).rxbuf = s.rxbuf := rfl
@[simp] theorem endFrame_work : (endFrame s).work = Work.empty := rfl
@[simp] theorem endFrame_dev : (endFrame s).dev = s.dev := rfl
@[simp] theorem endFrame_evq : (endFrame s).evq = s.evq := rfl
@[simp] theorem endFrame_logq : (endFrame s).logq = s.logq := rfl
@[simp] theorem endFrame_faultReg : (endFrame s).faultReg = s.faultReg := rfl
@[simp] theorem endFrame_phase : (endFrame s).phase = .scan := rfl
@[simp] theorem endFrame_chunk : (endFrame s).chunk = s.chunk := rfl
@[simp] theorem endFrame_now : (endFrame s).now = s.now := rfl
@[simp] theorem endFrame_hostq : (endFrame s).hostq = s.hostq := rfl
@[simp] theorem endFrame_replies : (endFrame s).replies = s.replies := rfl

@[simp] theorem drop_params (c : Cause) (r : Option U16) (t : Option Byte) : (drop c r t s).params = s.params := rfl
@[simp] theorem drop_eng (c : Cause) (r : Option U16) (t : Option Byte) : (drop c r t s).eng = s.eng := rfl
@[simp] theorem drop_crctab (c : Cause) (r : Option U16) (t : Option Byte) : (drop c r t s).crctab = s.crctab := rfl
@[simp] theorem drop_rxbuf (c : Cause) (r : Option U16) (t : Option Byte) : (drop c r t s).rxbuf = s.rxbuf := rfl
@[simp] theorem drop_work (c : Cause) (r : Option U16) (t : Option Byte) : (drop c r t s).work = Work.empty := rfl
@[simp] theorem drop_dev (c : Cause) (r : Option U16) (t : Option Byte) : (drop c r t s).dev = s.dev := rfl
@[simp] theorem drop_evq (c : Cause) (r : Option U16) (t : Option Byte) : (drop c r t s).evq = s.evq := rfl
@[simp] theorem drop_logq (c : Cause) (r : Option U16) (t : Option Byte) : (drop c r t s).logq = s.logq ++ [⟨c, r, t⟩] := rfl
@[simp] theorem drop_faultReg (c : Cause) (r : Option U16) (t : Option Byte) : (drop c r t s).faultReg = s.faultReg := rfl
@[simp] theorem drop_phase (c : Cause) (r : Option U16) (t : Option Byte) : (drop c r t s).phase = .scan := rfl
@[simp] theorem drop_chunk (c : Cause) (r : Option U16) (t : Option Byte) : (drop c r t s).chunk = s.chunk := rfl
@[simp] theorem drop_now (c : Cause) (r : Option U16) (t : Option Byte) : (drop c r t s).now = s.now := rfl
@[simp] theorem drop_hostq (c : Cause) (r : Option U16) (t : Option Byte) : (drop c r t s).hostq = s.hostq := rfl
@[simp] theorem drop_replies (c : Cause) (r : Option U16) (t : Option Byte) : (drop c r t s).replies = s.replies := rfl

@[simp] theorem answer_params (r : Reply) : (answer r s).params = s.params := rfl
@[simp] theorem answer_eng (r : Reply) : (answer r s).eng = s.eng := rfl
@[simp] theorem answer_crctab (r : Reply) : (answer r s).crctab = s.crctab := rfl
@[simp] theorem answer_rxbuf (r : Reply) : (answer r s).rxbuf = s.rxbuf := rfl
@[simp] theorem answer_work (r : Reply) : (answer r s).work = s.work := rfl
@[simp] theorem answer_dev (r : Reply) : (answer r s).dev = s.dev := rfl
@[simp] theorem answer_evq (r : Reply) : (answer r s).evq = s.evq := rfl
@[simp] theorem answer_logq (r : Reply) : (answer r s).logq = s.logq := rfl
@[simp] theorem answer_faultReg (r : Reply) : (answer r s).faultReg = s.faultReg := rfl
@[simp] theorem answer_phase (r : Reply) : (answer r s).phase = s.phase := rfl
@[simp] theorem answer_chunk (r : Reply) : (answer r s).chunk = s.chunk := rfl
@[simp] theorem answer_now (r : Reply) : (answer r s).now = s.now := rfl
@[simp] theorem answer_hostq (r : Reply) : (answer r s).hostq = s.hostq := rfl
@[simp] theorem answer_replies (r : Reply) : (answer r s).replies = s.replies ++ [r] := rfl

@[simp] theorem finish_params (r : Reply) : (finish r s).params = s.params := rfl
@[simp] theorem finish_eng (r : Reply) : (finish r s).eng = s.eng := rfl
@[simp] theorem finish_crctab (r : Reply) : (finish r s).crctab = s.crctab := rfl
@[simp] theorem finish_rxbuf (r : Reply) : (finish r s).rxbuf = s.rxbuf := rfl
@[simp] theorem finish_work (r : Reply) : (finish r s).work = s.work := rfl
@[simp] theorem finish_dev (r : Reply) : (finish r s).dev = s.dev := rfl
@[simp] theorem finish_evq (r : Reply) : (finish r s).evq = s.evq := rfl
@[simp] theorem finish_logq (r : Reply) : (finish r s).logq = s.logq := rfl
@[simp] theorem finish_faultReg (r : Reply) : (finish r s).faultReg = s.faultReg := rfl
@[simp] theorem finish_phase (r : Reply) : (finish r s).phase = .idle := rfl
@[simp] theorem finish_chunk (r : Reply) : (finish r s).chunk = [] := rfl
@[simp] theorem finish_now (r : Reply) : (finish r s).now = s.now := rfl
@[simp] theorem finish_hostq (r : Reply) : (finish r s).hostq = s.hostq := rfl
@[simp] theorem finish_replies (r : Reply) : (finish r s).replies = s.replies ++ [r] := rfl

@[simp] theorem beginFrame_params (f : List Byte) : (beginFrame f s).params = s.params := rfl
@[simp] theorem beginFrame_eng (f : List Byte) : (beginFrame f s).eng = s.eng := rfl
@[simp] theorem beginFrame_crctab (f : List Byte) : (beginFrame f s).crctab = s.crctab := rfl
@[simp] theorem beginFrame_rxbuf (f : List Byte) : (beginFrame f s).rxbuf = s.rxbuf := rfl
@[simp] theorem beginFrame_work (f : List Byte) : (beginFrame f s).work = { Work.empty with frm := f, fcur := f } := rfl
@[simp] theorem beginFrame_dev (f : List Byte) : (beginFrame f s).dev = s.dev := rfl
@[simp] theorem beginFrame_evq (f : List Byte) : (beginFrame f s).evq = s.evq := rfl
@[simp] theorem beginFrame_logq (f : List Byte) : (beginFrame f s).logq = s.logq := rfl
@[simp] theorem beginFrame_faultReg (f : List Byte) : (beginFrame f s).faultReg = s.faultReg := rfl
@[simp] theorem beginFrame_phase (f : List Byte) : (beginFrame f s).phase = .unescape := rfl
@[simp] theorem beginFrame_chunk (f : List Byte) : (beginFrame f s).chunk = s.chunk := rfl
@[simp] theorem beginFrame_now (f : List Byte) : (beginFrame f s).now = s.now := rfl
@[simp] theorem beginFrame_hostq (f : List Byte) : (beginFrame f s).hostq = s.hostq := rfl
@[simp] theorem beginFrame_replies (f : List Byte) : (beginFrame f s).replies = s.replies := rfl

@[simp] theorem pushUnescaped_params (b : Byte) : (pushUnescaped b s).params = s.params := rfl
@[simp] theorem pushUnescaped_eng (b : Byte) : (pushUnescaped b s).eng = s.eng := rfl
@[simp] theorem pushUnescaped_crctab (b : Byte) : (pushUnescaped b s).crctab = s.crctab := rfl
@[simp] theorem pushUnescaped_rxbuf (b : Byte) : (pushUnescaped b s).rxbuf = s.rxbuf := rfl
@[simp] theorem pushUnescaped_work (b : Byte) : (pushUnescaped b s).work = { s.work with u := s.work.u ++ [b] } := rfl
@[simp] theorem pushUnescaped_dev (b : Byte) : (pushUnescaped b s).dev = s.dev := rfl
@[simp] theorem pushUnescaped_evq (b : Byte) : (pushUnescaped b s).evq = s.evq := rfl
@[simp] theorem pushUnescaped_logq (b : Byte) : (pushUnescaped b s).logq = s.logq := rfl
@[simp] theorem pushUnescaped_faultReg (b : Byte) : (pushUnescaped b s).faultReg = s.faultReg := rfl
@[simp] theorem pushUnescaped_phase (b : Byte) : (pushUnescaped b s).phase = s.phase := rfl
@[simp] theorem pushUnescaped_chunk (b : Byte) : (pushUnescaped b s).chunk = s.chunk := rfl
@[simp] theorem pushUnescaped_now (b : Byte) : (pushUnescaped b s).now = s.now := rfl
@[simp] theorem pushUnescaped_hostq (b : Byte) : (pushUnescaped b s).hostq = s.hostq := rfl
@[simp] theorem pushUnescaped_replies (b : Byte) : (pushUnescaped b s).replies = s.replies := rfl

@[simp] theorem startWalk_params (r : RecordType) : (startWalk r s).params = s.params := rfl
@[simp] theorem startWalk_eng (r : RecordType) : (startWalk r s).eng = s.eng := rfl
@[simp] theorem startWalk_crctab (r : RecordType) : (startWalk r s).crctab = s.crctab := rfl
@[simp] theorem startWalk_rxbuf (r : RecordType) : (startWalk r s).rxbuf = s.rxbuf := rfl
@[simp] theorem startWalk_work (r : RecordType) : (startWalk r s).work = { s.work with rtype := r.code, p := s.work.u.drop HDR_LEN } := rfl
@[simp] theorem startWalk_dev (r : RecordType) : (startWalk r s).dev = s.dev := rfl
@[simp] theorem startWalk_evq (r : RecordType) : (startWalk r s).evq = s.evq := rfl
@[simp] theorem startWalk_logq (r : RecordType) : (startWalk r s).logq = s.logq := rfl
@[simp] theorem startWalk_faultReg (r : RecordType) : (startWalk r s).faultReg = s.faultReg := rfl
@[simp] theorem startWalk_phase (r : RecordType) : (startWalk r s).phase = .walk := rfl
@[simp] theorem startWalk_chunk (r : RecordType) : (startWalk r s).chunk = s.chunk := rfl
@[simp] theorem startWalk_now (r : RecordType) : (startWalk r s).now = s.now := rfl
@[simp] theorem startWalk_hostq (r : RecordType) : (startWalk r s).hostq = s.hostq := rfl
@[simp] theorem startWalk_replies (r : RecordType) : (startWalk r s).replies = s.replies := rfl

@[simp] theorem devWrite_params (w : DeviceModel → DeviceModel) : (devWrite w s).params = s.params := rfl
@[simp] theorem devWrite_eng (w : DeviceModel → DeviceModel) : (devWrite w s).eng = s.eng := rfl
@[simp] theorem devWrite_crctab (w : DeviceModel → DeviceModel) : (devWrite w s).crctab = s.crctab := rfl
@[simp] theorem devWrite_rxbuf (w : DeviceModel → DeviceModel) : (devWrite w s).rxbuf = s.rxbuf := rfl
@[simp] theorem devWrite_work (w : DeviceModel → DeviceModel) : (devWrite w s).work = s.work := rfl
@[simp] theorem devWrite_dev (w : DeviceModel → DeviceModel) : (devWrite w s).dev = w s.dev := rfl
@[simp] theorem devWrite_evq (w : DeviceModel → DeviceModel) : (devWrite w s).evq = s.evq := rfl
@[simp] theorem devWrite_logq (w : DeviceModel → DeviceModel) : (devWrite w s).logq = s.logq := rfl
@[simp] theorem devWrite_faultReg (w : DeviceModel → DeviceModel) : (devWrite w s).faultReg = s.faultReg := rfl
@[simp] theorem devWrite_phase (w : DeviceModel → DeviceModel) : (devWrite w s).phase = s.phase := rfl
@[simp] theorem devWrite_chunk (w : DeviceModel → DeviceModel) : (devWrite w s).chunk = s.chunk := rfl
@[simp] theorem devWrite_now (w : DeviceModel → DeviceModel) : (devWrite w s).now = s.now := rfl
@[simp] theorem devWrite_hostq (w : DeviceModel → DeviceModel) : (devWrite w s).hostq = s.hostq := rfl
@[simp] theorem devWrite_replies (w : DeviceModel → DeviceModel) : (devWrite w s).replies = s.replies := rfl

@[simp] theorem setCurslot_params (n : Nat) : (setCurslot n s).params = s.params := rfl
@[simp] theorem setCurslot_eng (n : Nat) : (setCurslot n s).eng = s.eng := rfl
@[simp] theorem setCurslot_crctab (n : Nat) : (setCurslot n s).crctab = s.crctab := rfl
@[simp] theorem setCurslot_rxbuf (n : Nat) : (setCurslot n s).rxbuf = s.rxbuf := rfl
@[simp] theorem setCurslot_work (n : Nat) : (setCurslot n s).work = { s.work with curslot := some n } := rfl
@[simp] theorem setCurslot_dev (n : Nat) : (setCurslot n s).dev = s.dev := rfl
@[simp] theorem setCurslot_evq (n : Nat) : (setCurslot n s).evq = s.evq := rfl
@[simp] theorem setCurslot_logq (n : Nat) : (setCurslot n s).logq = s.logq := rfl
@[simp] theorem setCurslot_faultReg (n : Nat) : (setCurslot n s).faultReg = s.faultReg := rfl
@[simp] theorem setCurslot_phase (n : Nat) : (setCurslot n s).phase = s.phase := rfl
@[simp] theorem setCurslot_chunk (n : Nat) : (setCurslot n s).chunk = s.chunk := rfl
@[simp] theorem setCurslot_now (n : Nat) : (setCurslot n s).now = s.now := rfl
@[simp] theorem setCurslot_hostq (n : Nat) : (setCurslot n s).hostq = s.hostq := rfl
@[simp] theorem setCurslot_replies (n : Nat) : (setCurslot n s).replies = s.replies := rfl

@[simp] theorem pbWrite_params (w : PassingBuilder → PassingBuilder) : (pbWrite w s).params = s.params := rfl
@[simp] theorem pbWrite_eng (w : PassingBuilder → PassingBuilder) : (pbWrite w s).eng = s.eng := rfl
@[simp] theorem pbWrite_crctab (w : PassingBuilder → PassingBuilder) : (pbWrite w s).crctab = s.crctab := rfl
@[simp] theorem pbWrite_rxbuf (w : PassingBuilder → PassingBuilder) : (pbWrite w s).rxbuf = s.rxbuf := rfl
@[simp] theorem pbWrite_work (w : PassingBuilder → PassingBuilder) : (pbWrite w s).work = { s.work with pb := w s.work.pb } := rfl
@[simp] theorem pbWrite_dev (w : PassingBuilder → PassingBuilder) : (pbWrite w s).dev = s.dev := rfl
@[simp] theorem pbWrite_evq (w : PassingBuilder → PassingBuilder) : (pbWrite w s).evq = s.evq := rfl
@[simp] theorem pbWrite_logq (w : PassingBuilder → PassingBuilder) : (pbWrite w s).logq = s.logq := rfl
@[simp] theorem pbWrite_faultReg (w : PassingBuilder → PassingBuilder) : (pbWrite w s).faultReg = s.faultReg := rfl
@[simp] theorem pbWrite_phase (w : PassingBuilder → PassingBuilder) : (pbWrite w s).phase = s.phase := rfl
@[simp] theorem pbWrite_chunk (w : PassingBuilder → PassingBuilder) : (pbWrite w s).chunk = s.chunk := rfl
@[simp] theorem pbWrite_now (w : PassingBuilder → PassingBuilder) : (pbWrite w s).now = s.now := rfl
@[simp] theorem pbWrite_hostq (w : PassingBuilder → PassingBuilder) : (pbWrite w s).hostq = s.hostq := rfl
@[simp] theorem pbWrite_replies (w : PassingBuilder → PassingBuilder) : (pbWrite w s).replies = s.replies := rfl

@[simp] theorem commitPassing_params (v : U64) : (commitPassing v s).params = s.params := rfl
@[simp] theorem commitPassing_eng (v : U64) : (commitPassing v s).eng = s.eng := rfl
@[simp] theorem commitPassing_crctab (v : U64) : (commitPassing v s).crctab = s.crctab := rfl
@[simp] theorem commitPassing_rxbuf (v : U64) : (commitPassing v s).rxbuf = s.rxbuf := rfl
@[simp] theorem commitPassing_work (v : U64) : (commitPassing v s).work = { s.work with lastrec := some ⟨s.work.pb.pilotId, s.work.pb.passingNumber, some v, s.work.pb.decoderId, s.work.pb.peakHeight, s.work.pb.flags, localTime s v⟩, pb := PassingBuilder.empty } := rfl
@[simp] theorem commitPassing_dev (v : U64) : (commitPassing v s).dev = { s.dev with passing := s.dev.passing ++ [⟨s.work.pb.pilotId, s.work.pb.passingNumber, some v, s.work.pb.decoderId, s.work.pb.peakHeight, s.work.pb.flags, localTime s v⟩] } := rfl
@[simp] theorem commitPassing_evq (v : U64) : (commitPassing v s).evq = s.evq := rfl
@[simp] theorem commitPassing_logq (v : U64) : (commitPassing v s).logq = s.logq := rfl
@[simp] theorem commitPassing_faultReg (v : U64) : (commitPassing v s).faultReg = s.faultReg := rfl
@[simp] theorem commitPassing_phase (v : U64) : (commitPassing v s).phase = s.phase := rfl
@[simp] theorem commitPassing_chunk (v : U64) : (commitPassing v s).chunk = s.chunk := rfl
@[simp] theorem commitPassing_now (v : U64) : (commitPassing v s).now = s.now := rfl
@[simp] theorem commitPassing_hostq (v : U64) : (commitPassing v s).hostq = s.hostq := rfl
@[simp] theorem commitPassing_replies (v : U64) : (commitPassing v s).replies = s.replies := rfl

@[simp] theorem resetBlock_params : (resetBlock s).params = s.params := rfl
@[simp] theorem resetBlock_eng : (resetBlock s).eng = .uninit := rfl
@[simp] theorem resetBlock_crctab : (resetBlock s).crctab = crcTable := rfl
@[simp] theorem resetBlock_rxbuf : (resetBlock s).rxbuf = [] := rfl
@[simp] theorem resetBlock_work : (resetBlock s).work = Work.empty := rfl
@[simp] theorem resetBlock_dev : (resetBlock s).dev = DeviceModel.empty := rfl
@[simp] theorem resetBlock_evq : (resetBlock s).evq = [] := rfl
@[simp] theorem resetBlock_logq : (resetBlock s).logq = [] := rfl
@[simp] theorem resetBlock_faultReg : (resetBlock s).faultReg = .none := rfl
@[simp] theorem resetBlock_phase : (resetBlock s).phase = .idle := rfl
@[simp] theorem resetBlock_chunk : (resetBlock s).chunk = [] := rfl
@[simp] theorem resetBlock_now : (resetBlock s).now = 0 := rfl
@[simp] theorem resetBlock_hostq : (resetBlock s).hostq = s.hostq := rfl
@[simp] theorem resetBlock_replies : (resetBlock s).replies = s.replies := rfl

end Sys2Proof.Machine
end

