-- ==== Sys2Proof/Laws/Ops.lean ====
section
/-! SUPPORT. What each shared operation can do, said once: reading and writing the per-slot files and that
every write keeps their canonical form; the cases of the operations that branch; the engine's `Init`. -/

namespace Sys2Proof.Machine

/-! ## Per-slot files -/

theorem slotGet_slotSet_same {α : Type} (f : SlotFile α) (s : Nat) (v : α) :
    slotGet (slotSet f s v) s = some v := by
  induction f with
  | nil => simp [slotSet, slotGet]
  | cons e rest ih =>
    obtain ⟨k, w⟩ := e
    unfold slotSet
    split
    · simp [slotGet]
    · split
      · simp [slotGet]
      · next h => simp [slotGet, h, ih]

theorem slotGet_slotSet_other {α : Type} (f : SlotFile α) {s s' : Nat} (v : α) (h : s' ≠ s) :
    slotGet (slotSet f s v) s' = slotGet f s' := by
  induction f with
  | nil => simp [slotSet, slotGet, h]
  | cons e rest ih =>
    obtain ⟨k, w⟩ := e
    unfold slotSet
    split
    · simp [slotGet, h]
    · split
      · next hk => subst hk; simp [slotGet, h]
      · simp [slotGet, ih]

/-- The slots of a file after a write: the written one and the old ones. -/
theorem mem_slotSet_keys {α : Type} (f : SlotFile α) (s : Nat) (v : α) (e : Nat × α)
    (he : e ∈ slotSet f s v) : e.1 = s ∨ e ∈ f := by
  induction f with
  | nil => simp [slotSet] at he; simp [he]
  | cons x rest ih =>
    obtain ⟨k, w⟩ := x
    unfold slotSet at he
    split at he
    · rcases List.mem_cons.1 he with rfl | he
      · exact .inl rfl
      · exact .inr he
    · split at he
      · rcases List.mem_cons.1 he with rfl | he
        · exact .inl rfl
        · exact .inr (List.mem_cons_of_mem _ he)
      · rcases List.mem_cons.1 he with rfl | he
        · exact .inr List.mem_cons_self
        · exact (ih he).imp_right (List.mem_cons_of_mem _)

/-- A write keeps the slots strictly rising. -/
theorem slotSet_rising {α : Type} (f : SlotFile α) (s : Nat) (v : α)
    (h : (f.map Prod.fst).Pairwise (· < ·)) : ((slotSet f s v).map Prod.fst).Pairwise (· < ·) := by
  induction f with
  | nil => simp [slotSet]
  | cons x rest ih =>
    obtain ⟨k, w⟩ := x
    rw [List.map_cons, List.pairwise_cons] at h
    unfold slotSet
    split
    · next hs =>
      simp only [List.map_cons, List.pairwise_cons]
      refine ⟨fun a ha => ?_, h⟩
      rcases List.mem_cons.1 ha with rfl | ha
      · exact hs
      · exact Nat.lt_trans hs (h.1 a ha)
    · split
      · next hs => subst hs; simpa using h
      · next h1 h2 =>
        simp only [List.map_cons, List.pairwise_cons]
        refine ⟨fun a ha => ?_, ih h.2⟩
        obtain ⟨e, he, rfl⟩ := List.mem_map.1 ha
        rcases mem_slotSet_keys rest s v e he with he | he
        · show k < e.1
          omega
        · exact h.1 _ (List.mem_map_of_mem he)

/-- A write of a slot below `MAX_SLOTS` keeps the canonical form. -/
theorem slotFileWf_slotSet {α : Type} {n : Nat} {f : SlotFile α} {s : Nat} (v : α)
    (h : slotFileWf n f = true) (hs : s < n) : slotFileWf n (slotSet f s v) = true := by
  simp only [slotFileWf, Bool.and_eq_true, decide_eq_true_eq, List.all_eq_true] at h ⊢
  refine ⟨slotSet_rising f s v h.1, fun e he => ?_⟩
  rcases mem_slotSet_keys f s v e he with he | he
  · omega
  · exact h.2 e he

/-- The empty Device Model is in canonical form. -/
theorem memory_wf_empty (n : Nat) : Memory.wf n DeviceModel.empty = true := by
  simp [Memory.wf, DeviceModel.empty, slotFileWf]

/-- The machine's per-slot files are in canonical form at reset. -/
theorem memory_wf_reset : Memory.wf State.reset.params.maxSlots State.reset.dev = true :=
  memory_wf_empty _

/-- A Device Model that differs from one in canonical form in registers that are not per slot is in canonical form. -/
theorem memory_wf_of_files {n : Nat} {d d' : DeviceModel} (h : Memory.wf n d = true)
    (h1 : d'.rfEnabled = d.rfEnabled) (h2 : d'.rfChannel = d.rfChannel) (h3 : d'.rfBand = d.rfBand)
    (h4 : d'.rfThreshold = d.rfThreshold) (h5 : d'.rfGain = d.rfGain) (h6 : d'.rfFreq = d.rfFreq)
    (h7 : d'.rssiMin = d.rssiMin) (h8 : d'.rssiMax = d.rssiMax) (h9 : d'.rssiMean = d.rssiMean)
    (h10 : d'.rssiLast = d.rssiLast) : Memory.wf n d' = true := by
  simpa [Memory.wf, h1, h2, h3, h4, h5, h6, h7, h8, h9, h10] using h

section wf_writes
variable {n slot : Nat} {d : DeviceModel} (h : Memory.wf n d = true) (hs : slot < n)
include h hs

theorem memory_wf_rfEnabled (v : U64) : Memory.wf n { d with rfEnabled := slotSet d.rfEnabled slot v } = true := by
  simp only [Memory.wf, Bool.and_eq_true] at h ⊢; simp [h, slotFileWf_slotSet, hs]
theorem memory_wf_rfChannel (v : U64) : Memory.wf n { d with rfChannel := slotSet d.rfChannel slot v } = true := by
  simp only [Memory.wf, Bool.and_eq_true] at h ⊢; simp [h, slotFileWf_slotSet, hs]
theorem memory_wf_rfBand (v : U64) : Memory.wf n { d with rfBand := slotSet d.rfBand slot v } = true := by
  simp only [Memory.wf, Bool.and_eq_true] at h ⊢; simp [h, slotFileWf_slotSet, hs]
theorem memory_wf_rfThreshold (v : U32) : Memory.wf n { d with rfThreshold := slotSet d.rfThreshold slot v } = true := by
  simp only [Memory.wf, Bool.and_eq_true] at h ⊢; simp [h, slotFileWf_slotSet, hs]
theorem memory_wf_rfGain (v : U64) : Memory.wf n { d with rfGain := slotSet d.rfGain slot v } = true := by
  simp only [Memory.wf, Bool.and_eq_true] at h ⊢; simp [h, slotFileWf_slotSet, hs]
theorem memory_wf_rfFreq (v : U64) : Memory.wf n { d with rfFreq := slotSet d.rfFreq slot v } = true := by
  simp only [Memory.wf, Bool.and_eq_true] at h ⊢; simp [h, slotFileWf_slotSet, hs]
theorem memory_wf_rssiMin (v : U32) : Memory.wf n { d with rssiMin := slotSet d.rssiMin slot v } = true := by
  simp only [Memory.wf, Bool.and_eq_true] at h ⊢; simp [h, slotFileWf_slotSet, hs]
theorem memory_wf_rssiMax (v : U32) : Memory.wf n { d with rssiMax := slotSet d.rssiMax slot v } = true := by
  simp only [Memory.wf, Bool.and_eq_true] at h ⊢; simp [h, slotFileWf_slotSet, hs]
theorem memory_wf_rssiMean (v : U32) : Memory.wf n { d with rssiMean := slotSet d.rssiMean slot v } = true := by
  simp only [Memory.wf, Bool.and_eq_true] at h ⊢; simp [h, slotFileWf_slotSet, hs]
theorem memory_wf_rssiLast (v : U32) : Memory.wf n { d with rssiLast := slotSet d.rssiLast slot v } = true := by
  simp only [Memory.wf, Bool.and_eq_true] at h ⊢; simp [h, slotFileWf_slotSet, hs]

end wf_writes

/-! ## Operations that branch -/

/-- What a guarded per-slot write does: skip with `NO_SLOT`, skip with `SLOT_RANGE`, or write (R228). -/
theorem slotWrite_cases (r : RecordType) (tag : Byte) (w : Nat → DeviceModel → DeviceModel) (s : State) :
    (s.work.curslot = none ∧ slotWrite r tag w s = skip .noSlot r tag s) ∨
    (∃ slot, s.work.curslot = some slot ∧ s.params.maxSlots ≤ slot ∧ slotWrite r tag w s = skip .slotRange r tag s) ∨
    (∃ slot, s.work.curslot = some slot ∧ slot < s.params.maxSlots ∧
      slotWrite r tag w s = { s with dev := w slot s.dev }) := by
  unfold slotWrite
  split
  · next h => exact .inl ⟨h, rfl⟩
  · next slot h =>
    split
    · next hs => exact .inr (.inl ⟨slot, h, hs, rfl⟩)
    · next hs => exact .inr (.inr ⟨slot, h, by omega, rfl⟩)

/-- What a field of kind UINT does: its effect, or skip with `BAD_WIDTH` (R225). -/
theorem withUInt_cases (r : RecordType) (tag : Byte) (val : List Byte) (k : U64 → State → State) (s : State) :
    (∃ v, uintVal val = some v ∧ withUInt r tag val k s = k v s) ∨
    (uintVal val = none ∧ withUInt r tag val k s = skip .badWidth r tag s) := by
  unfold withUInt
  split
  · next v h => exact .inl ⟨v, h, rfl⟩
  · next h => exact .inr ⟨h, rfl⟩

/-- What a field of kind F32 does: its effect, or skip with `BAD_WIDTH` (R226). -/
theorem withF32_cases (r : RecordType) (tag : Byte) (val : List Byte) (k : U32 → State → State) (s : State) :
    (∃ v, f32Val val = some v ∧ withF32 r tag val k s = k v s) ∨
    (f32Val val = none ∧ withF32 r tag val k s = skip .badWidth r tag s) := by
  unfold withF32
  split
  · next v h => exact .inl ⟨v, h, rfl⟩
  · next h => exact .inr ⟨h, rfl⟩

/-- What the correlation does: nothing with no request pending, else the two registers of R281. -/
theorem correlate_cases (v : U64) (s : State) :
    (s.dev.rtcReqAt = none ∧ correlate v s = s) ∨
    (∃ t0, s.dev.rtcReqAt = some t0 ∧ correlate v s =
      devWrite (fun d => { d with
        rtcLocalSeconds := some ((s.now - (s.now - t0) * mkRat 1 2) - rtcSeconds s.params v)
        rtcReqAt := none }) s) := by
  unfold correlate
  split
  · next h => exact .inl ⟨h, rfl⟩
  · next t0 h => exact .inr ⟨t0, h, rfl⟩

/-- What an append to the frame in progress does (R192, R198). -/
theorem accumulate_cases (b : Byte) (s : State) :
    (hasRoom s = true ∧ accumulate b s = { s with rxbuf := s.rxbuf ++ [b] }) ∨
    (hasRoom s = false ∧ accumulate b s = overflow s) := by
  unfold accumulate
  split
  · next h => exact .inl ⟨h, rfl⟩
  · next h => exact .inr ⟨by simpa using h, rfl⟩

/-- What a byte that is neither START nor END does (R196, R197). -/
theorem collect_cases (b : Byte) (s : State) :
    (s.rxbuf = [] ∧ collect b s = s) ∨ (s.rxbuf ≠ [] ∧ collect b s = accumulate b s) := by
  unfold collect
  split
  · next h => exact .inl ⟨h, rfl⟩
  · next h => exact .inr ⟨h, rfl⟩

/-- What the END byte does (R195, R198). -/
theorem closeFrame_cases (s : State) :
    (s.rxbuf = [] ∧ closeFrame s = s) ∨
    (s.rxbuf ≠ [] ∧ hasRoom s = true ∧ closeFrame s = beginFrame (s.rxbuf ++ [END]) { s with rxbuf := [] }) ∨
    (s.rxbuf ≠ [] ∧ hasRoom s = false ∧ closeFrame s = overflow s) := by
  unfold closeFrame
  split
  · next h => exact .inl ⟨h, rfl⟩
  · next h =>
    split
    · next hr => exact .inr (.inl ⟨h, hr, rfl⟩)
    · next hr => exact .inr (.inr ⟨h, by simpa using hr, rfl⟩)

/-- The overflow in full (R198, R323). -/
theorem overflow_eq (s : State) : overflow s = { s with
    faultReg := .bufOverflow
    logq := s.logq ++ [⟨.bufOverflow, none, none⟩]
    phase := .idle
    chunk := []
    replies := s.replies ++ [.aborted] } := rfl

/-- What the reader of a candidate does where no pair stands (R171, R173). -/
theorem copyPlain_cases (s : State) :
    (s.work.fcur = [] ∧ copyPlain s = { s with phase := .check }) ∨
    (∃ rest, s.work.fcur = ESC :: rest ∧ copyPlain s = { s with work := { s.work with fcur := rest } }) ∨
    (∃ b rest, b ≠ ESC ∧ s.work.fcur = b :: rest ∧
      copyPlain s = { s with work := { s.work with fcur := rest, u := s.work.u ++ [b] } }) := by
  unfold copyPlain
  split
  · next h => exact .inl ⟨h, rfl⟩
  · next b rest h =>
    by_cases hb : b = ESC
    · subst hb; exact .inr (.inl ⟨rest, h, by simp⟩)
    · exact .inr (.inr ⟨b, rest, hb, h, by simp [hb, pushUnescaped]⟩)

/-! ## The engine -/

/-- The constructed table passes the self-test (R156). -/
theorem selfTestPasses_crcTable : selfTestPasses crcTable = true := by decide +kernel

/-- `Init` from UNINIT: the table is built and the engine is READY (R157). -/
theorem initEngine_uninit {s : State} (h : s.eng = .uninit) :
    initEngine s = { s with crctab := crcTable, eng := .ready } := by
  unfold initEngine
  simp [h, selfTestPasses_crcTable]

/-- `Init` does nothing to a READY engine (R157). -/
theorem initEngine_ready {s : State} (h : s.eng = .ready) : initEngine s = s := by
  unfold initEngine
  simp [h]

/-- `Init` does nothing to a FAILED engine (R157). -/
theorem initEngine_failed {s : State} (h : s.eng = .failed) : initEngine s = s := by
  unfold initEngine
  simp [h]

theorem operable_iff (s : State) : operable s = true ↔ s.eng = .ready ∧ s.faultReg = .none := by
  simp [operable]

/-! ## Parameters at reset -/

theorem freshByte_not_mem (used : List Byte) (k : Nat) (h : used.length < 256) :
    Config.freshByte used k ∉ used := by
  unfold Config.freshByte
  generalize hf : (((List.range 256).map (BitVec.ofNat 8)).filter fun b => !used.contains b) = free
  have hne : free ≠ [] := by
    intro h0
    have hsub : ((List.range 256).map (BitVec.ofNat 8)) ⊆ used := by
      intro b hb
      by_contra hn
      have : b ∈ free := by rw [← hf]; simp [List.mem_filter, hb, hn]
      simp [h0] at this
    have hnd : ((List.range 256).map (BitVec.ofNat 8)).Nodup := by decide +kernel
    have := hnd.length_le_of_subset hsub
    simp at this
    omega
  have hlen : k % free.length < free.length := Nat.mod_lt _ (List.length_pos_iff.2 hne)
  have hmem : free.getD (k % free.length) 0 ∈ free := by
    rw [List.getD_eq_getElem _ _ hlen]
    exact List.getElem_mem hlen
  have : free.getD (k % free.length) 0 ∈ ((List.range 256).map (BitVec.ofNat 8)).filter fun b => !used.contains b := by
    rw [hf]; exact hmem
  have := (List.mem_filter.1 this).2
  simpa using this

/-- Whatever four numbers select it, the gate map is injective (R12, R252). -/
theorem gateCodesOf_wf (choice : Gate → Nat) : (Config.gateCodesOf choice).wf = true := by
  have h1 := freshByte_not_mem [Config.freshByte [] (choice .idle)] (choice .active) (by simp)
  have h2 := freshByte_not_mem [Config.freshByte [] (choice .idle),
    Config.freshByte [Config.freshByte [] (choice .idle)] (choice .active)] (choice .crashed) (by simp)
  have h3 := freshByte_not_mem [Config.freshByte [] (choice .idle),
    Config.freshByte [Config.freshByte [] (choice .idle)] (choice .active),
    Config.freshByte [Config.freshByte [] (choice .idle),
      Config.freshByte [Config.freshByte [] (choice .idle)] (choice .active)] (choice .crashed)] (choice .shutdown) (by simp)
  simp only [List.mem_cons, List.not_mem_nil, or_false, not_or] at h1 h2 h3
  simp only [GateCodes.wf, Config.gateCodesOf, Bool.and_eq_true, bne_iff_ne, ne_eq]
  exact ⟨⟨⟨⟨⟨fun h => h1 h.symm, fun h => h2.1 h.symm⟩, fun h => h3.1 h.symm⟩, fun h => h2.2 h.symm⟩,
    fun h => h3.2.1 h.symm⟩, fun h => h3.2.2 h.symm⟩

/-- Every byte not yet used is picked by some number. -/
theorem freshByte_surj {used : List Byte} {b : Byte} (h : b ∉ used) : ∃ k, Config.freshByte used k = b := by
  unfold Config.freshByte
  generalize hf : (((List.range 256).map (BitVec.ofNat 8)).filter fun b => !used.contains b) = free
  have hb : b ∈ free := by
    rw [← hf]
    simp only [List.mem_filter, List.mem_map, List.mem_range]
    refine ⟨⟨b.toNat, b.isLt, by simp⟩, by simpa using h⟩
  refine ⟨free.idxOf b, ?_⟩
  have hlt := List.idxOf_lt_length_of_mem hb
  simp only [Nat.mod_eq_of_lt hlt]
  rw [List.getD_eq_getElem _ _ hlt]
  exact List.getElem_idxOf hlt

/-- Every injective map is the one some numbers select: the open constant is any map R12 admits. -/
theorem gateCodesOf_complete (c : GateCodes) (h : c.wf = true) : ∃ choice, Config.gateCodesOf choice = c := by
  obtain ⟨a, b, d, e⟩ := c
  simp only [GateCodes.wf, Bool.and_eq_true, bne_iff_ne, ne_eq] at h
  obtain ⟨⟨⟨⟨⟨hab, had⟩, hae⟩, hbd⟩, hbe⟩, hde⟩ := h
  obtain ⟨k0, h0⟩ := freshByte_surj (used := []) (b := a) (by simp)
  obtain ⟨k1, h1⟩ := freshByte_surj (used := [a]) (b := b) (by simpa using fun h => hab h.symm)
  obtain ⟨k2, h2⟩ := freshByte_surj (used := [a, b]) (b := d)
    (by simpa using ⟨fun h => had h.symm, fun h => hbd h.symm⟩)
  obtain ⟨k3, h3⟩ := freshByte_surj (used := [a, b, d]) (b := e)
    (by simpa using ⟨fun h => hae h.symm, fun h => hbe h.symm, fun h => hde h.symm⟩)
  refine ⟨fun g => match g with | .idle => k0 | .active => k1 | .crashed => k2 | .shutdown => k3, ?_⟩
  simp only [Config.gateCodesOf, h0, h1, h2, h3]

/-- The parameters at reset are what R12 asks, whatever the open constants are. -/
theorem config_params_wf : Config.params.wf = true := by
  have hg : Config.params.gateCode.wf = true := gateCodesOf_wf Config.gateChoice
  have hr : 0 < Config.params.rtcTicksPerSecond := by
    show (0 : Rat) < ((Config.rtcTicksNum + 1 : Nat) : Rat) / ((Config.rtcTicksDen + 1 : Nat) : Rat)
    positivity
  simp [Params.wf, hg, hr]

end Sys2Proof.Machine
end

