-- ==== Sys2Proof/Laws/PerInstr.lean ====
section
/-! SUPPORT. Per instruction: decoding the encoding of a well-formed instruction, whatever bytes follow it,
gives the instruction back and leaves exactly those bytes. One lemma per constructor. -/

namespace Sys2Proof.Laws

theorem ofCode_code (r : RecordType) : RecordType.ofCode r.code = some r := by
  cases r <;> decide

/-- A code is recognised exactly when it is one of the nine (R212). -/
theorem ofCode_isSome_iff (code : U16) : (RecordType.ofCode code).isSome = true ↔ code ∈ recognisedCodes := by
  unfold RecordType.ofCode recognisedCodes
  simp only [List.mem_cons, List.not_mem_nil, or_false]
  split_ifs <;> simp_all

/-- A code that is none of the nine has no record type (R124). -/
theorem ofCode_none {code : U16} (h : code ∉ recognisedCodes) : RecordType.ofCode code = none := by
  have := mt (ofCode_isSome_iff code).1 h
  simpa using this

/-- The two bytes of a code, read back little-endian, are the code (R86). -/
theorem u16le_codeBytes (code : U16) : u16le (code.extractLsb' 0 8) (code.extractLsb' 8 8) = code := by
  refine BitVec.eq_of_getLsbD_eq fun i hi => ?_
  simp only [u16le, BitVec.getLsbD_append, BitVec.getLsbD_extractLsb']
  by_cases h : i < 8
  · simp [h]
  · have h8 : 8 + (i - 8) = i := by omega
    have h' : i - 8 < 8 := by omega
    simp [h, h8, h']

/-- Decoding a TLV field's bytes in a frame of its record (R115, R215, R217). -/
theorem decode_tlvBytes (r : RecordType) (tag : Byte) (val rest : List Byte) (h : valueFits val = true) :
    decode (.field r.code) (tlvBytes tag val ++ rest) = .ok (fieldInstr r tag val, rest) := by
  have hl : val.length ≤ 255 := by simpa [valueFits] using h
  have hn : (BitVec.ofNat 8 val.length).toNat = val.length := by
    rw [BitVec.toNat_ofNat]; omega
  simp only [tlvBytes, decode, List.cons_append, hn, List.length_append, ofCode_code,
    List.take_left, List.drop_left]
  rw [if_neg (by omega)]

/-- A tag that has no row of its own selects the record's default row (R123). -/
theorem unlisted_iff (r : RecordType) (tag : Byte) (val : List Byte) :
    unlisted r tag val = true ↔ tag ∉ listedTags r ∧ valueFits val = true := by
  simp [unlisted]

namespace RoundTrip

/-- Decode of encode is the instruction, with the bytes after it untouched. -/
def Statement (i : Instr) : Prop :=
  i.wf = true → ∀ rest, decode i.level (encode i ++ rest) = .ok (i, rest)

theorem byteStart : Statement .byteStart := fun _ _ => rfl

theorem byteEnd : Statement .byteEnd := fun _ _ => rfl

theorem byteEsc : Statement .byteEsc := fun _ _ => rfl

theorem byteData (b : Byte) : Statement (.byteData b) := by
  intro h rest
  have h' : b ≠ START ∧ b ≠ END ∧ b ≠ ESC := by simpa [Instr.wf, reservedBytes] using h
  simp [encode, Instr.level, decode, streamInstr, h'.1, h'.2.1, h'.2.2]

theorem escPair (x : Byte) : Statement (.escPair x) := fun _ _ => rfl

theorem rssi : Statement .rssi := fun _ _ => rfl

theorem rfsetup : Statement .rfsetup := fun _ _ => rfl

theorem statectl : Statement .statectl := fun _ _ => rfl

theorem settings : Statement .settings := fun _ _ => rfl

theorem desc : Statement .desc := fun _ _ => rfl

theorem passing : Statement .passing := fun _ _ => rfl

theorem status : Statement .status := fun _ _ => rfl

theorem time : Statement .time := fun _ _ => rfl

theorem error : Statement .error := fun _ _ => rfl

theorem frameUnknown (rtype : U16) : Statement (.frameUnknown rtype) := by
  intro h rest
  have hc : rtype ∉ recognisedCodes := by simpa [Instr.wf] using h
  simp [encode, Instr.level, decode, codeBytes, u16le_codeBytes, frameInstrOfCode, ofCode_none hc]

theorem rssiSlot (val : List Byte) : Statement (.rssiSlot val) :=
  fun h rest => decode_tlvBytes .rssi 0x01#8 val rest h

theorem rssiMin (val : List Byte) : Statement (.rssiMin val) :=
  fun h rest => decode_tlvBytes .rssi 0x20#8 val rest h

theorem rssiMax (val : List Byte) : Statement (.rssiMax val) :=
  fun h rest => decode_tlvBytes .rssi 0x21#8 val rest h

theorem rssiMean (val : List Byte) : Statement (.rssiMean val) :=
  fun h rest => decode_tlvBytes .rssi 0x22#8 val rest h

theorem rssiX23 (val : List Byte) : Statement (.rssiX23 val) :=
  fun h rest => decode_tlvBytes .rssi 0x23#8 val rest h

theorem rssiX26 (val : List Byte) : Statement (.rssiX26 val) :=
  fun h rest => decode_tlvBytes .rssi 0x26#8 val rest h

theorem rfsetupSlot (val : List Byte) : Statement (.rfsetupSlot val) :=
  fun h rest => decode_tlvBytes .rfsetup 0x01#8 val rest h

theorem rfsetupEnabled (val : List Byte) : Statement (.rfsetupEnabled val) :=
  fun h rest => decode_tlvBytes .rfsetup 0x20#8 val rest h

theorem rfsetupChannel (val : List Byte) : Statement (.rfsetupChannel val) :=
  fun h rest => decode_tlvBytes .rfsetup 0x21#8 val rest h

theorem rfsetupBand (val : List Byte) : Statement (.rfsetupBand val) :=
  fun h rest => decode_tlvBytes .rfsetup 0x22#8 val rest h

theorem rfsetupThreshold (val : List Byte) : Statement (.rfsetupThreshold val) :=
  fun h rest => decode_tlvBytes .rfsetup 0x23#8 val rest h

theorem rfsetupGain (val : List Byte) : Statement (.rfsetupGain val) :=
  fun h rest => decode_tlvBytes .rfsetup 0x24#8 val rest h

theorem rfsetupFreq (val : List Byte) : Statement (.rfsetupFreq val) :=
  fun h rest => decode_tlvBytes .rfsetup 0x25#8 val rest h

theorem statectlGate (val : List Byte) : Statement (.statectlGate val) :=
  fun h rest => decode_tlvBytes .statectl 0x20#8 val rest h

theorem settingsStatusint (val : List Byte) : Statement (.settingsStatusint val) :=
  fun h rest => decode_tlvBytes .settings 0x22#8 val rest h

theorem settingsMinlap (val : List Byte) : Statement (.settingsMinlap val) :=
  fun h rest => decode_tlvBytes .settings 0x26#8 val rest h

theorem passingSlot (val : List Byte) : Statement (.passingSlot val) :=
  fun h rest => decode_tlvBytes .passing 0x01#8 val rest h

theorem passingRtc (val : List Byte) : Statement (.passingRtc val) :=
  fun h rest => decode_tlvBytes .passing 0x02#8 val rest h

theorem passingDecoder (val : List Byte) : Statement (.passingDecoder val) :=
  fun h rest => decode_tlvBytes .passing 0x20#8 val rest h

theorem passingNumber (val : List Byte) : Statement (.passingNumber val) :=
  fun h rest => decode_tlvBytes .passing 0x21#8 val rest h

theorem passingPeak (val : List Byte) : Statement (.passingPeak val) :=
  fun h rest => decode_tlvBytes .passing 0x22#8 val rest h

theorem passingFlags (val : List Byte) : Statement (.passingFlags val) :=
  fun h rest => decode_tlvBytes .passing 0x23#8 val rest h

theorem statusSlot (val : List Byte) : Statement (.statusSlot val) :=
  fun h rest => decode_tlvBytes .status 0x01#8 val rest h

theorem statusFlags (val : List Byte) : Statement (.statusFlags val) :=
  fun h rest => decode_tlvBytes .status 0x03#8 val rest h

theorem statusBatt (val : List Byte) : Statement (.statusBatt val) :=
  fun h rest => decode_tlvBytes .status 0x21#8 val rest h

theorem statusLastrssi (val : List Byte) : Statement (.statusLastrssi val) :=
  fun h rest => decode_tlvBytes .status 0x22#8 val rest h

theorem statusGate (val : List Byte) : Statement (.statusGate val) :=
  fun h rest => decode_tlvBytes .status 0x23#8 val rest h

theorem statusDetect (val : List Byte) : Statement (.statusDetect val) :=
  fun h rest => decode_tlvBytes .status 0x24#8 val rest h

theorem timeRtc (val : List Byte) : Statement (.timeRtc val) :=
  fun h rest => decode_tlvBytes .time 0x02#8 val rest h

theorem timeTrt (val : List Byte) : Statement (.timeTrt val) :=
  fun h rest => decode_tlvBytes .time 0x20#8 val rest h

theorem descAny (tag : Byte) (val : List Byte) : Statement (.descAny tag val) :=
  fun h rest => decode_tlvBytes .desc tag val rest h

theorem errorAny (tag : Byte) (val : List Byte) : Statement (.errorAny tag val) :=
  fun h rest => decode_tlvBytes .error tag val rest h

theorem rssiUnknown (tag : Byte) (val : List Byte) : Statement (.rssiUnknown tag val) := by
  intro h rest
  obtain ⟨ht, hv⟩ := (unlisted_iff .rssi tag val).1 h
  simp only [listedTags, List.mem_cons, List.not_mem_nil, or_false, not_or] at ht
  have hf : fieldInstr .rssi tag val = .rssiUnknown tag val := by simp [fieldInstr, ht]
  exact (decode_tlvBytes .rssi tag val rest hv).trans (by rw [hf])

theorem rfsetupUnknown (tag : Byte) (val : List Byte) : Statement (.rfsetupUnknown tag val) := by
  intro h rest
  obtain ⟨ht, hv⟩ := (unlisted_iff .rfsetup tag val).1 h
  simp only [listedTags, List.mem_cons, List.not_mem_nil, or_false, not_or] at ht
  have hf : fieldInstr .rfsetup tag val = .rfsetupUnknown tag val := by simp [fieldInstr, ht]
  exact (decode_tlvBytes .rfsetup tag val rest hv).trans (by rw [hf])

theorem statectlUnknown (tag : Byte) (val : List Byte) : Statement (.statectlUnknown tag val) := by
  intro h rest
  obtain ⟨ht, hv⟩ := (unlisted_iff .statectl tag val).1 h
  simp only [listedTags, List.mem_cons, List.not_mem_nil, or_false] at ht
  have hf : fieldInstr .statectl tag val = .statectlUnknown tag val := by simp [fieldInstr, ht]
  exact (decode_tlvBytes .statectl tag val rest hv).trans (by rw [hf])

theorem settingsUnknown (tag : Byte) (val : List Byte) : Statement (.settingsUnknown tag val) := by
  intro h rest
  obtain ⟨ht, hv⟩ := (unlisted_iff .settings tag val).1 h
  simp only [listedTags, List.mem_cons, List.not_mem_nil, or_false, not_or] at ht
  have hf : fieldInstr .settings tag val = .settingsUnknown tag val := by simp [fieldInstr, ht]
  exact (decode_tlvBytes .settings tag val rest hv).trans (by rw [hf])

theorem passingUnknown (tag : Byte) (val : List Byte) : Statement (.passingUnknown tag val) := by
  intro h rest
  obtain ⟨ht, hv⟩ := (unlisted_iff .passing tag val).1 h
  simp only [listedTags, List.mem_cons, List.not_mem_nil, or_false, not_or] at ht
  have hf : fieldInstr .passing tag val = .passingUnknown tag val := by simp [fieldInstr, ht]
  exact (decode_tlvBytes .passing tag val rest hv).trans (by rw [hf])

theorem statusUnknown (tag : Byte) (val : List Byte) : Statement (.statusUnknown tag val) := by
  intro h rest
  obtain ⟨ht, hv⟩ := (unlisted_iff .status tag val).1 h
  simp only [listedTags, List.mem_cons, List.not_mem_nil, or_false, not_or] at ht
  have hf : fieldInstr .status tag val = .statusUnknown tag val := by simp [fieldInstr, ht]
  exact (decode_tlvBytes .status tag val rest hv).trans (by rw [hf])

theorem timeUnknown (tag : Byte) (val : List Byte) : Statement (.timeUnknown tag val) := by
  intro h rest
  obtain ⟨ht, hv⟩ := (unlisted_iff .time tag val).1 h
  simp only [listedTags, List.mem_cons, List.not_mem_nil, or_false, not_or] at ht
  have hf : fieldInstr .time tag val = .timeUnknown tag val := by simp [fieldInstr, ht]
  exact (decode_tlvBytes .time tag val rest hv).trans (by rw [hf])

end RoundTrip

end Sys2Proof.Laws
end

