-- ==== Sys2Proof/Laws/Step.lean ====
section
/-! SUPPORT. What a step can do, said once: the cases of the step by phase, the cases of a stream byte, of a
field and of a host operation. Claims cite these and do not unfold the step. -/

namespace Sys2Proof.Machine

/-! ## Fields -/

/-- To show something of every next state of a UINT field: show it of the effect and of the skip. -/
theorem withUInt_ind {Q : State → Prop} {r : RecordType} {tag : Byte} {val : List Byte} {k : U64 → State → State}
    {s : State} (h : ∀ v, uintVal val = some v → Q (k v s)) (h' : Q (skip .badWidth r tag s)) :
    Q (withUInt r tag val k s) := by
  rcases withUInt_cases r tag val k s with ⟨v, hv, e⟩ | ⟨-, e⟩ <;> rw [e]
  · exact h v hv
  · exact h'

/-- To show something of every next state of an F32 field: show it of the effect and of the skip. -/
theorem withF32_ind {Q : State → Prop} {r : RecordType} {tag : Byte} {val : List Byte} {k : U32 → State → State}
    {s : State} (h : ∀ v, f32Val val = some v → Q (k v s)) (h' : Q (skip .badWidth r tag s)) :
    Q (withF32 r tag val k s) := by
  rcases withF32_cases r tag val k s with ⟨v, hv, e⟩ | ⟨-, e⟩ <;> rw [e]
  · exact h v hv
  · exact h'

/-- To show something of every next state of a guarded per-slot write. -/
theorem slotWrite_ind {Q : State → Prop} {r : RecordType} {tag : Byte} {w : Nat → DeviceModel → DeviceModel}
    {s : State} (h : ∀ c, Q (skip c r tag s))
    (h' : ∀ slot, slot < s.params.maxSlots → Q { s with dev := w slot s.dev }) : Q (slotWrite r tag w s) := by
  rcases slotWrite_cases r tag w s with ⟨-, e⟩ | ⟨_, -, -, e⟩ | ⟨slot, -, hs, e⟩ <;> rw [e]
  · exact h _
  · exact h _
  · exact h' slot hs

/-- What a field may change: it logs one entry and nothing else, or it writes the Device Model, the current
slot, the builder and the last record (R321). -/
def FieldShape (s t : State) : Prop :=
  (∃ e, t = { s with logq := s.logq ++ [e] }) ∨
  t = { s with
    dev := t.dev
    work := { s.work with curslot := t.work.curslot, pb := t.work.pb, lastrec := t.work.lastrec } }

theorem FieldShape.of_skip (c : Cause) (r : RecordType) (tag : Byte) (s : State) : FieldShape s (skip c r tag s) :=
  .inl ⟨_, rfl⟩

theorem FieldShape.of_slotWrite (r : RecordType) (tag : Byte) (w : Nat → DeviceModel → DeviceModel) (s : State) :
    FieldShape s (slotWrite r tag w s) :=
  slotWrite_ind (fun _ => .of_skip ..) fun _ _ => .inr rfl

theorem FieldShape.of_correlate (v : U64) (s : State) :
    FieldShape s (correlate v (devWrite (fun d => { d with rtcTime := some v }) s)) := by
  rcases correlate_cases v (devWrite (fun d => { d with rtcTime := some v }) s) with ⟨-, e⟩ | ⟨_, -, e⟩ <;>
    rw [e] <;> exact .inr rfl

theorem FieldShape.of_withUInt {r : RecordType} {tag : Byte} {val : List Byte} {k : U64 → State → State} {s : State}
    (h : ∀ v, FieldShape s (k v s)) : FieldShape s (withUInt r tag val k s) :=
  withUInt_ind (fun v _ => h v) (.of_skip ..)

theorem FieldShape.of_withF32 {r : RecordType} {tag : Byte} {val : List Byte} {k : U32 → State → State} {s : State}
    (h : ∀ v, FieldShape s (k v s)) : FieldShape s (withF32 r tag val k s) :=
  withF32_ind (fun v _ => h v) (.of_skip ..)

/-- Every field instruction answers a next state of that shape. -/
theorem exec_field_shape {i : Instr} (h : i.field.isSome = true) (s : State) :
    ∃ t, exec i s = .next t ∧ FieldShape s t := by
  cases i <;> first
    | (simp [Instr.field] at h; done)
    | (refine ⟨_, rfl, ?_⟩
       first
         | with_reducible exact .of_skip ..
         | with_reducible exact .of_withUInt fun v => .of_slotWrite ..
         | with_reducible exact .of_withF32 fun v => .of_slotWrite ..
         | with_reducible exact .of_withUInt fun v => .of_correlate ..
         | exact .of_withUInt fun v => .inr rfl
         | exact .inr rfl)

/-- What a field of a record may log: nothing, or one entry of its record and tag with a skip cause (R220, R321). -/
def FieldLogs (r : RecordType) (tag : Byte) (s t : State) : Prop :=
  t.logq = s.logq ∨ ∃ c ∈ [Cause.unknownTag, .badWidth, .noSlot, .slotRange],
    t.logq = s.logq ++ [⟨c, some r.code, some tag⟩]

theorem FieldLogs.of_skip {c : Cause} (hc : c ∈ [Cause.unknownTag, .badWidth, .noSlot, .slotRange])
    (r : RecordType) (tag : Byte) (s : State) : FieldLogs r tag s (skip c r tag s) := .inr ⟨c, hc, rfl⟩

theorem FieldLogs.of_slotWrite (r : RecordType) (tag : Byte) (w : Nat → DeviceModel → DeviceModel) (s : State) :
    FieldLogs r tag s (slotWrite r tag w s) := by
  rcases slotWrite_cases r tag w s with ⟨-, e⟩ | ⟨_, -, -, e⟩ | ⟨_, -, -, e⟩ <;> rw [e]
  · exact .of_skip (by decide) ..
  · exact .of_skip (by decide) ..
  · exact .inl rfl

theorem FieldLogs.of_correlate (r : RecordType) (tag : Byte) (v : U64) (s : State) :
    FieldLogs r tag s (correlate v (devWrite (fun d => { d with rtcTime := some v }) s)) := by
  rcases correlate_cases v (devWrite (fun d => { d with rtcTime := some v }) s) with ⟨-, e⟩ | ⟨_, -, e⟩ <;>
    rw [e] <;> exact .inl rfl

theorem FieldLogs.of_withUInt {r : RecordType} {tag : Byte} {val : List Byte} {k : U64 → State → State} {s : State}
    (h : ∀ v, FieldLogs r tag s (k v s)) : FieldLogs r tag s (withUInt r tag val k s) :=
  withUInt_ind (fun v _ => h v) (.of_skip (by decide) ..)

theorem FieldLogs.of_withF32 {r : RecordType} {tag : Byte} {val : List Byte} {k : U32 → State → State} {s : State}
    (h : ∀ v, FieldLogs r tag s (k v s)) : FieldLogs r tag s (withF32 r tag val k s) :=
  withF32_ind (fun v _ => h v) (.of_skip (by decide) ..)

/-- Every field instruction logs at most one skip entry of its own record and tag. -/
theorem exec_field_logs {i : Instr} {r : RecordType} {tag : Byte} {val : List Byte}
    (h : i.field = some (r, tag, val)) {s t : State} (he : exec i s = .next t) : FieldLogs r tag s t := by
  cases i <;> (first | (simp [Instr.field] at h; done) | skip) <;> cases h <;> cases he <;> first
    | with_reducible exact .of_skip (by decide) ..
    | with_reducible exact .of_withUInt fun v => .of_slotWrite ..
    | with_reducible exact .of_withF32 fun v => .of_slotWrite ..
    | with_reducible exact .of_withUInt fun v => .of_correlate ..
    | exact .of_withUInt fun v => .inl rfl
    | exact .inl rfl

theorem memory_wf_withUInt {n : Nat} {r : RecordType} {tag : Byte} {val : List Byte} {k : U64 → State → State}
    {s : State} (hw : Memory.wf n s.dev = true) (h : ∀ v, Memory.wf n (k v s).dev = true) :
    Memory.wf n (withUInt r tag val k s).dev = true :=
  withUInt_ind (Q := fun t => Memory.wf n t.dev = true) (fun v _ => h v) hw

theorem memory_wf_withF32 {n : Nat} {r : RecordType} {tag : Byte} {val : List Byte} {k : U32 → State → State}
    {s : State} (hw : Memory.wf n s.dev = true) (h : ∀ v, Memory.wf n (k v s).dev = true) :
    Memory.wf n (withF32 r tag val k s).dev = true :=
  withF32_ind (Q := fun t => Memory.wf n t.dev = true) (fun v _ => h v) hw

theorem memory_wf_slotWrite {r : RecordType} {tag : Byte} {w : Nat → DeviceModel → DeviceModel} {s : State}
    (hw : Memory.wf s.params.maxSlots s.dev = true)
    (h : ∀ slot, slot < s.params.maxSlots → Memory.wf s.params.maxSlots (w slot s.dev) = true) :
    Memory.wf s.params.maxSlots (slotWrite r tag w s).dev = true :=
  slotWrite_ind (Q := fun t => Memory.wf s.params.maxSlots t.dev = true) (fun _ => hw) h

theorem memory_wf_correlate {n : Nat} {v : U64} {s : State} (hw : Memory.wf n s.dev = true) :
    Memory.wf n (correlate v (devWrite (fun d => { d with rtcTime := some v }) s)).dev = true := by
  rcases correlate_cases v (devWrite (fun d => { d with rtcTime := some v }) s) with ⟨-, e⟩ | ⟨_, -, e⟩ <;> rw [e] <;>
    exact memory_wf_of_files hw rfl rfl rfl rfl rfl rfl rfl rfl rfl rfl

/-- A field keeps the per-slot files in canonical form (R85). -/
theorem memory_wf_exec_field {i : Instr} (hi : i.field.isSome = true) {s t : State} (h : exec i s = .next t)
    (hw : Memory.wf s.params.maxSlots s.dev = true) : Memory.wf s.params.maxSlots t.dev = true := by
  cases i <;> (first | (simp [Instr.field] at hi; done) | skip) <;> cases h
  case timeRtc => exact memory_wf_withUInt hw fun v => memory_wf_correlate hw
  case rfsetupEnabled | rfsetupChannel | rfsetupBand | rfsetupGain | rfsetupFreq =>
    refine memory_wf_withUInt hw fun v => memory_wf_slotWrite hw fun sl hs => ?_
    simp only [Memory.wf, Bool.and_eq_true] at hw ⊢
    simp [hw, slotFileWf_slotSet, hs]
  case rssiMin | rssiMax | rssiMean | rfsetupThreshold | statusLastrssi =>
    refine memory_wf_withF32 hw fun v => memory_wf_slotWrite hw fun sl hs => ?_
    simp only [Memory.wf, Bool.and_eq_true] at hw ⊢
    simp [hw, slotFileWf_slotSet, hs]
  case rssiSlot | rfsetupSlot | statusSlot | passingSlot | passingRtc | passingDecoder | passingNumber | passingPeak | passingFlags | statectlGate | statusGate | settingsMinlap | statusFlags | statusBatt | statusDetect | timeTrt =>
    exact memory_wf_withUInt hw fun v => memory_wf_of_files hw rfl rfl rfl rfl rfl rfl rfl rfl rfl rfl
  all_goals exact memory_wf_of_files hw rfl rfl rfl rfl rfl rfl rfl rfl rfl rfl

/-- The instruction a tag selects is a field of that record and tag (R122, R123). -/
theorem fieldInstr_field (r : RecordType) (tag : Byte) (val : List Byte) :
    (fieldInstr r tag val).field = some (r, tag, val) := by
  cases r <;> simp only [fieldInstr] <;> (try split_ifs) <;> simp_all [Instr.field]

/-! ## Frames -/

/-- A recognised frame instruction starts the walk (R211, R213). -/
theorem exec_frameInstr (r : RecordType) (s : State) : exec (frameInstr r) s = .next (startWalk r s) := by
  cases r <;> rfl

theorem exec_frameInstrOfCode_some {code : U16} {r : RecordType} (h : RecordType.ofCode code = some r) (s : State) :
    exec (frameInstrOfCode code) s = .next (startWalk r s) := by
  simp only [frameInstrOfCode, h, exec_frameInstr]

theorem exec_frameInstrOfCode_none {code : U16} (h : RecordType.ofCode code = none) (s : State) :
    exec (frameInstrOfCode code) s = .next (dropUnknownType code s) := by
  simp only [frameInstrOfCode, h]
  rfl

theorem ofCode_eq_some {code : U16} {r : RecordType} (h : RecordType.ofCode code = some r) : code = r.code := by
  unfold RecordType.ofCode at h
  split_ifs at h <;> (cases h; assumption)

/-! ## Stream bytes -/

/-- What a stream byte does (R187, R190, R192, R194 to R198): it is discarded, appended, completes a candidate, or overflows. -/
theorem exec_streamInstr_cases (b : Byte) (s : State) :
    (s.rxbuf = [] ∧ b ≠ START ∧ exec (streamInstr b) s = .next s) ∨
    ((s.rxbuf ≠ [] ∨ b = START) ∧ hasRoom s = false ∧ exec (streamInstr b) s = .next (overflow s)) ∨
    ((s.rxbuf ≠ [] ∨ b = START) ∧ b ≠ END ∧ hasRoom s = true ∧
      exec (streamInstr b) s = .next { s with rxbuf := s.rxbuf ++ [b] }) ∨
    (s.rxbuf ≠ [] ∧ b = END ∧ hasRoom s = true ∧
      exec (streamInstr b) s = .next (beginFrame (s.rxbuf ++ [END]) { s with rxbuf := [] })) := by
  unfold streamInstr
  have hse : START ≠ END := by decide
  have hes : END ≠ START := by decide
  split_ifs with h1 h2 h3
  · subst h1
    cases hr : hasRoom s <;> simp [exec, execByteStart, accumulate, hr, hse]
  · subst h2
    by_cases he : s.rxbuf = [] <;> cases hr : hasRoom s <;>
      simp [exec, execByteEnd, closeFrame, he, hr, hes]
  · subst h3
    by_cases he : s.rxbuf = [] <;> cases hr : hasRoom s <;>
      simp [exec, execByteEsc, collect, accumulate, he, hr, h1, h2]
  · by_cases he : s.rxbuf = [] <;> cases hr : hasRoom s <;>
      simp [exec, execByteData, collect, accumulate, he, hr, h1, h2]

/-! ## Host operations -/

/-- An operation that is refused changes nothing of the block (R58, R322). -/
theorem hostOp_refused {op : HostOp} {s : State} (hf : s.faultReg ≠ .none) (ha : op.alwaysAdmitted = false) :
    hostOp op s = answer .refused s := by
  have hr : refusing s = true := by simpa [refusing] using hf
  simp only [hostOp, hr, ha, Bool.not_false, Bool.and_self, if_true]

/-- An operation that is not refused. -/
theorem hostOp_performed {op : HostOp} {s : State} (h : s.faultReg = .none ∨ op.alwaysAdmitted = true) :
    hostOp op s = performOp op s := by
  unfold hostOp refusing
  rcases h with h | h <;> simp [h]

/-- What `Init` does: nothing, or the table and the READY engine (R157). -/
theorem initEngine_cases (s : State) :
    (s.eng ≠ .uninit ∧ initEngine s = s) ∨
    (s.eng = .uninit ∧ initEngine s = { s with crctab := crcTable, eng := .ready }) := by
  cases h : s.eng
  · exact .inr ⟨rfl, initEngine_uninit h⟩
  · exact .inl ⟨by simp, initEngine_ready h⟩
  · exact .inl ⟨by simp, initEngine_failed h⟩

/-- What an operation that needs the engine does (R157): `Init`, then the operation, or the abort. -/
theorem withEngine_cases (op : State → State) (s : State) :
    ((initEngine s).eng = .ready ∧ (initEngine s).faultReg = .none ∧ withEngine op s = op (initEngine s)) ∨
    (operable (initEngine s) = false ∧ withEngine op s = answer .aborted (initEngine s)) := by
  unfold withEngine
  cases h : operable (initEngine s)
  · exact .inr ⟨rfl, by simp [h]⟩
  · obtain ⟨h1, h2⟩ := (operable_iff _).1 h
    exact .inl ⟨h1, h2, by simp [h]⟩

/-- With the constructed table, no failed engine and no fault, an operation that needs the engine runs, the
engine READY (R157). -/
theorem withEngine_sound (op : State → State) {s : State} (ht : s.crctab = crcTable) (he : s.eng ≠ .failed)
    (hf : s.faultReg = .none) : withEngine op s = op { s with eng := .ready } := by
  have hi : initEngine s = { s with eng := .ready } := by
    obtain ⟨params, eng, crctab, rxbuf, work, dev, evq, logq, faultReg, phase, chunk, now, hostq, replies⟩ := s
    subst ht hf
    cases eng
    · rw [initEngine_uninit rfl]
    · rw [initEngine_ready rfl]
    · exact absurd rfl he
  have ho : operable { s with eng := .ready } = true := (operable_iff _).2 ⟨rfl, hf⟩
  simp only [withEngine, hi, ho, if_true]

/-- A read of a slot that exists (R85). -/
theorem readSlot_below {α : Type} {s : State} {slot : Nat} (h : slot < s.params.maxSlots) (f : SlotFile α)
    (view : Option α → HostVal) : readSlot s f slot view = view (slotGet f slot) := if_pos h

/-- A read of a slot that does not exist (R85). -/
theorem readSlot_beyond {α : Type} {s : State} {slot : Nat} (h : s.params.maxSlots ≤ slot) (f : SlotFile α)
    (view : Option α → HostVal) : readSlot s f slot view = .absent := if_neg (Nat.not_lt.mpr h)

/-- A frame above 65535 bytes is not built (R295). -/
theorem buildFrame_refused {tab : List U16} {code : U16} {fields : List Byte} (h : 65527 < fields.length) :
    buildFrame tab code fields = none := by
  have hx : (frameBody code fields).length > MAX_RAW_FRAME := by
    simp [frameBody, leBytes, codeBytes, MAX_RAW_FRAME]
    omega
  simp [buildFrame, buildRaw, hx]

/-! ## The step, by phase -/

theorem step_idle {s : State} (h : s.phase = .idle) : step s = .next (hostStep s) := by
  simp only [step, controlStep, h]

/-- Between operations the step performs the oldest queued operation (R10). -/
theorem step_hostOp {s : State} {op : HostOp} {rest : List HostOp} (h : s.phase = .idle) (hq : s.hostq = op :: rest) :
    step s = .next (hostOp op { s with hostq := rest }) := by
  rw [step_idle h, hostStep, hq]

theorem step_scan_nil {s : State} (h : s.phase = .scan) (hc : s.chunk = []) : step s = .next (finish .done s) := by
  simp only [step, controlStep, h, stepScan, hc, decode]

theorem step_scan_cons {s : State} {b : Byte} {rest : List Byte} (h : s.phase = .scan) (hc : s.chunk = b :: rest) :
    step s = exec (streamInstr b) { s with chunk := rest } := by
  simp only [step, controlStep, h, stepScan, hc, decode]

theorem step_unescape_pair {s : State} {x : Byte} {rest : List Byte} (h : s.phase = .unescape)
    (hc : s.work.fcur = ESC :: x :: rest) :
    step s = .next { s with work := { s.work with fcur := rest, u := s.work.u ++ [unescapeByte x] } } := by
  simp only [step, controlStep, h, stepUnescape, hc, decode, if_true]
  rfl

theorem step_unescape_copy {s : State} (h : s.phase = .unescape)
    (hc : ∀ x rest, s.work.fcur ≠ ESC :: x :: rest) : step s = .next (copyPlain s) := by
  simp only [step, controlStep, h, stepUnescape, decode]
  match hf : s.work.fcur with
  | [] => rfl
  | [b] => rfl
  | b :: x :: rest =>
    have hb : b ≠ ESC := fun hb => hc x rest (by rw [hf, hb])
    simp only [if_neg hb]

theorem step_check_drop {s : State} {c : Cause} (h : s.phase = .check) (hj : judgeFrame s.crctab s.work.u = some c) :
    step s = .next (drop c none none s) := by
  simp only [step, controlStep, h, stepCheck, hj]

/-- A frame that passes has its eight bytes, so a record type stands at offset 5. -/
theorem judgeFrame_none {tab : List U16} {u : List Byte} (h : judgeFrame tab u = none) :
    8 ≤ u.length ∧ u.getD 0 0 = START ∧ crc16 tab (zeroCrcField u) = crcField u := by
  unfold judgeFrame at h
  split_ifs at h with h1 h2 h3
  exact ⟨by simpa [MIN_FRAME] using h1, by simpa using h2, by simpa using h3⟩

theorem drop5_zeroCrcField {u : List Byte} (h : 8 ≤ u.length) :
    (zeroCrcField u).drop 5 = u.getD 5 0 :: u.getD 6 0 :: u.drop 7 := by
  match u, h with
  | a :: b :: c :: d :: e :: f :: g :: rest, _ => simp [zeroCrcField]

theorem drop7_zeroCrcField (u : List Byte) : (zeroCrcField u).drop 7 = u.drop 7 := by
  unfold zeroCrcField
  rw [List.drop_set_of_lt (by decide), List.drop_set_of_lt (by decide)]

theorem step_check_pass {s : State} (h : s.phase = .check) (hj : judgeFrame s.crctab s.work.u = none) :
    step s = exec (frameInstrOfCode (u16le (s.work.u.getD 5 0) (s.work.u.getD 6 0)))
      { s with work := { s.work with u := zeroCrcField s.work.u } } := by
  simp only [step, controlStep, h, stepCheck, hj, decode, drop5_zeroCrcField (judgeFrame_none hj).1]

theorem step_walk_end {s : State} (h : s.phase = .walk) (hl : s.work.p.length ≤ 3) :
    step s = .next (endFrame (emit s)) := by
  simp only [step, controlStep, h, stepWalk, TLV_STOP, hl, if_true]

theorem step_walk_truncated {s : State} {tag len : Byte} {rest : List Byte} (h : s.phase = .walk)
    (hp : s.work.p = tag :: len :: rest) (hl : 3 < s.work.p.length) (ht : rest.length < len.toNat) :
    step s = .next (drop .truncatedTlv (some s.work.rtype) (some tag) s) := by
  simp only [step, controlStep, h, stepWalk, TLV_STOP, if_neg (Nat.not_le.2 hl)]
  simp only [hp, decode, if_pos ht]

theorem step_walk_field {s : State} {r : RecordType} {tag len : Byte} {rest : List Byte} (h : s.phase = .walk)
    (hr : s.work.rtype = r.code) (hp : s.work.p = tag :: len :: rest) (hl : 3 < s.work.p.length)
    (ht : len.toNat ≤ rest.length) :
    step s = exec (fieldInstr r tag (rest.take len.toNat)) { s with work := { s.work with p := rest.drop len.toNat } } := by
  simp only [step, controlStep, h, stepWalk, TLV_STOP, if_neg (Nat.not_le.2 hl)]
  simp only [hp, decode, if_neg (Nat.not_lt.2 ht), hr, Laws.ofCode_code]

/-- Every next state of a step comes about in one of these ways. -/
theorem step_cases {s t : State} (h : step s = .next t) :
    (s.phase = .idle ∧ t = hostStep s) ∨
    (s.phase = .scan ∧ s.chunk = [] ∧ t = finish .done s) ∨
    (∃ b rest, s.phase = .scan ∧ s.chunk = b :: rest ∧ exec (streamInstr b) { s with chunk := rest } = .next t) ∨
    (∃ x rest, s.phase = .unescape ∧ s.work.fcur = ESC :: x :: rest ∧
      t = { s with work := { s.work with fcur := rest, u := s.work.u ++ [unescapeByte x] } }) ∨
    (s.phase = .unescape ∧ (∀ x rest, s.work.fcur ≠ ESC :: x :: rest) ∧ t = copyPlain s) ∨
    (∃ c, s.phase = .check ∧ judgeFrame s.crctab s.work.u = some c ∧ t = drop c none none s) ∨
    (s.phase = .check ∧ judgeFrame s.crctab s.work.u = none ∧
      exec (frameInstrOfCode (u16le (s.work.u.getD 5 0) (s.work.u.getD 6 0)))
        { s with work := { s.work with u := zeroCrcField s.work.u } } = .next t) ∨
    (s.phase = .walk ∧ s.work.p.length ≤ 3 ∧ t = endFrame (emit s)) ∨
    (∃ tag len rest, s.phase = .walk ∧ s.work.p = tag :: len :: rest ∧ 3 < s.work.p.length ∧
      rest.length < len.toNat ∧ t = drop .truncatedTlv (some s.work.rtype) (some tag) s) ∨
    (∃ r tag len rest, s.phase = .walk ∧ s.work.rtype = r.code ∧ s.work.p = tag :: len :: rest ∧
      3 < s.work.p.length ∧ len.toNat ≤ rest.length ∧
      exec (fieldInstr r tag (rest.take len.toNat)) { s with work := { s.work with p := rest.drop len.toNat } } = .next t) := by
  have hph : s.phase = .idle ∨ s.phase = .scan ∨ s.phase = .unescape ∨ s.phase = .check ∨ s.phase = .walk := by
    cases s.phase <;> simp
  rcases hph with hp | hp | hp | hp | hp
  · rw [step_idle hp] at h
    cases h
    exact .inl ⟨hp, rfl⟩
  · match hc : s.chunk with
    | [] =>
      rw [step_scan_nil hp hc] at h
      cases h
      exact .inr (.inl ⟨hp, rfl, rfl⟩)
    | b :: rest =>
      rw [step_scan_cons hp hc] at h
      exact .inr (.inr (.inl ⟨b, rest, hp, rfl, h⟩))
  · by_cases hc : ∃ x rest, s.work.fcur = ESC :: x :: rest
    · obtain ⟨x, rest, hc⟩ := hc
      rw [step_unescape_pair hp hc] at h
      cases h
      exact .inr (.inr (.inr (.inl ⟨x, rest, hp, hc, rfl⟩)))
    · have hc : ∀ x rest, s.work.fcur ≠ ESC :: x :: rest := fun x rest he => hc ⟨x, rest, he⟩
      rw [step_unescape_copy hp hc] at h
      cases h
      exact .inr (.inr (.inr (.inr (.inl ⟨hp, hc, rfl⟩))))
  · match hj : judgeFrame s.crctab s.work.u with
    | some c =>
      rw [step_check_drop hp hj] at h
      cases h
      exact .inr (.inr (.inr (.inr (.inr (.inl ⟨c, hp, rfl, rfl⟩)))))
    | none =>
      rw [step_check_pass hp hj] at h
      exact .inr (.inr (.inr (.inr (.inr (.inr (.inl ⟨hp, rfl, h⟩))))))
  · by_cases hl : s.work.p.length ≤ 3
    · rw [step_walk_end hp hl] at h
      cases h
      exact .inr (.inr (.inr (.inr (.inr (.inr (.inr (.inl ⟨hp, hl, rfl⟩)))))))
    · have hl : 3 < s.work.p.length := Nat.not_le.1 hl
      obtain ⟨tag, len, rest, hq⟩ : ∃ tag len rest, s.work.p = tag :: len :: rest := by
        match hq : s.work.p with
        | [] => simp [hq] at hl
        | [_] => simp [hq] at hl
        | a :: b :: c => exact ⟨a, b, c, rfl⟩
      by_cases ht : rest.length < len.toNat
      · rw [step_walk_truncated hp hq hl ht] at h
        cases h
        exact .inr (.inr (.inr (.inr (.inr (.inr (.inr (.inr (.inl ⟨tag, len, rest, hp, hq, hl, ht, rfl⟩))))))))
      · have ht : len.toNat ≤ rest.length := Nat.not_lt.1 ht
        match hr : RecordType.ofCode s.work.rtype with
        | some r =>
          have hr := ofCode_eq_some hr
          rw [step_walk_field hp hr hq hl ht] at h
          exact .inr (.inr (.inr (.inr (.inr (.inr (.inr (.inr (.inr ⟨r, tag, len, rest, hp, hr, hq, hl, ht, h⟩))))))))
        | none =>
          simp only [step, controlStep, hp, stepWalk, TLV_STOP, if_neg (Nat.not_le.2 hl)] at h
          simp [hq, decode, if_neg (Nat.not_lt.2 ht), hr] at h

end Sys2Proof.Machine
end

