-- ==== Sys2Proof/Tests/Slice0.lean ====
section
/-! SUPPORT. The model's own tests: ill-formed terms that `wf` refuses; every constructor's bytes, written out
from `spec/30_encoding.md`, decode to it; the opcode table's dispatch words; one step of each instruction on a
small state, with values from the spec's examples and vectors; and, for every obligation with hypotheses, a
concrete state and operands that meet them. -/

namespace Sys2Proof.Tests
open Sys2Proof Sys2Proof.Machine

/-! ## Small states -/

/-- Parameters of the vectors (`spec/95_test_vectors.md`): 8 slots, no capacity, gate codes 0 to 3, 1000000 ticks. -/
def params8 : Params := ⟨8, none, ⟨0x00#8, 0x01#8, 0x02#8, 0x03#8⟩, 1000000, [], []⟩
/-- The block after reset with those parameters. -/
def blank : State := State.resetWith params8
/-- A frame's decode with the given current slot. -/
def inSlot (slot : Nat) : State := { blank with work := { Work.empty with curslot := some slot } }
/-- The Device Model of the next state. -/
def devOf (o : Host.Outcome State Fault Refusal) : DeviceModel :=
  match o with
  | .next t => t.dev
  | .fault _ => DeviceModel.empty
  | .refused _ => DeviceModel.empty
/-- The working state of the next state. -/
def workOf (o : Host.Outcome State Fault Refusal) : Work :=
  match o with
  | .next t => t.work
  | .fault _ => Work.empty
  | .refused _ => Work.empty
/-- The log of the next state. -/
def logOf (o : Host.Outcome State Fault Refusal) : List LogEntry :=
  match o with
  | .next t => t.logq
  | .fault _ => []
  | .refused _ => []
/-- The accumulation buffer of the next state. -/
def bufOf (o : Host.Outcome State Fault Refusal) : List Byte :=
  match o with
  | .next t => t.rxbuf
  | .fault _ => []
  | .refused _ => []
/-- The phase of the next state. -/
def phaseOf (o : Host.Outcome State Fault Refusal) : Phase :=
  match o with
  | .next t => t.phase
  | .fault _ => .idle
  | .refused _ => .idle

/-! ## Well-formedness: one ill-formed term for each check -/

theorem test_wf_start_is_no_data : (Instr.byteData 0x5A#8).wf = false := by decide
theorem test_wf_end_is_no_data : (Instr.byteData 0x5B#8).wf = false := by decide
theorem test_wf_esc_is_no_data : (Instr.byteData 0x5C#8).wf = false := by decide
theorem test_wf_recognised_frames : (recognisedCodes.map fun c => (Instr.frameUnknown c).wf) =
    [false, false, false, false, false, false, false, false, false] := by decide
theorem test_wf_value_too_long : (Instr.rssiMin (List.replicate 256 0)).wf = false ∧
    (Instr.passingRtc (List.replicate 256 0)).wf = false ∧
    (Instr.descAny 0x01#8 (List.replicate 256 0)).wf = false ∧
    (Instr.timeUnknown 0x05#8 (List.replicate 256 0)).wf = false := by decide +kernel
theorem test_wf_value_of_255_bytes : (Instr.rssiMin (List.replicate 255 0)).wf = true := by decide +kernel
theorem test_wf_listed_tags : (Instr.rssiUnknown 0x20#8 []).wf = false ∧ (Instr.rfsetupUnknown 0x25#8 []).wf = false ∧
    (Instr.statectlUnknown 0x20#8 []).wf = false ∧ (Instr.settingsUnknown 0x22#8 []).wf = false ∧
    (Instr.passingUnknown 0x02#8 []).wf = false ∧ (Instr.statusUnknown 0x03#8 []).wf = false ∧
    (Instr.timeUnknown 0x20#8 []).wf = false := by decide

/-! ## Decoding words written out from the spec's encodings (R111, R112, R115, R121, R122) -/

theorem test_decode_stream_bytes :
    decode .stream [0x5A#8, 0x5A#8] = .ok (.byteStart, [0x5A#8]) ∧
    decode .stream [0x5B#8] = .ok (.byteEnd, []) ∧
    decode .stream [0x5C#8, 0x9A#8] = .ok (.byteEsc, [0x9A#8]) ∧
    decode .stream [0x59#8] = .ok (.byteData 0x59#8, []) ∧
    decode .stream [0x5D#8] = .ok (.byteData 0x5D#8, []) ∧
    decode .stream [] = .error .tooShort := ⟨rfl, rfl, rfl, rfl, rfl, rfl⟩
theorem test_decode_escape_pair :
    decode .escape [0x5C#8, 0x9B#8, 0x01#8] = .ok (.escPair 0x9B#8, [0x01#8]) ∧
    decode .escape [0x5C#8, 0x5C#8] = .ok (.escPair 0x5C#8, []) ∧
    decode .escape [0x5A#8, 0x9A#8] = .error .notEscapePair ∧
    decode .escape [0x5C#8] = .error .tooShort := ⟨rfl, rfl, rfl, rfl⟩
theorem test_decode_frames :
    decode .frame [0x01#8, 0xDA#8, 0x5B#8] = .ok (.rssi, [0x5B#8]) ∧
    decode .frame [0x02#8, 0xDA#8] = .ok (.rfsetup, []) ∧
    decode .frame [0x04#8, 0xDA#8] = .ok (.statectl, []) ∧
    decode .frame [0x07#8, 0xDA#8] = .ok (.settings, []) ∧
    decode .frame [0x08#8, 0xDA#8] = .ok (.desc, []) ∧
    decode .frame [0x09#8, 0xDA#8] = .ok (.passing, []) ∧
    decode .frame [0x0A#8, 0xDA#8] = .ok (.status, []) ∧
    decode .frame [0x0C#8, 0xDA#8] = .ok (.time, []) ∧
    decode .frame [0xFF#8, 0xFF#8] = .ok (.error, []) ∧
    decode .frame [0xDA#8, 0x01#8] = .ok (.frameUnknown 0x01DA#16, []) :=
  ⟨rfl, rfl, rfl, rfl, rfl, rfl, rfl, rfl, rfl, rfl⟩
theorem test_decode_rssi_fields :
    decode (.field 0xDA01#16) [0x01#8, 0x01#8, 0x02#8, 0x20#8] = .ok (.rssiSlot [0x02#8], [0x20#8]) ∧
    decode (.field 0xDA01#16) [0x20#8, 0x04#8, 0x00#8, 0x00#8, 0x48#8, 0x44#8] =
      .ok (.rssiMin [0x00#8, 0x00#8, 0x48#8, 0x44#8], []) ∧
    decode (.field 0xDA01#16) [0x21#8, 0x00#8] = .ok (.rssiMax [], []) ∧
    decode (.field 0xDA01#16) [0x22#8, 0x00#8] = .ok (.rssiMean [], []) ∧
    decode (.field 0xDA01#16) [0x23#8, 0x00#8] = .ok (.rssiX23 [], []) ∧
    decode (.field 0xDA01#16) [0x26#8, 0x00#8] = .ok (.rssiX26 [], []) ∧
    decode (.field 0xDA01#16) [0x24#8, 0x00#8] = .ok (.rssiUnknown 0x24#8 [], []) :=
  ⟨rfl, rfl, rfl, rfl, rfl, rfl, rfl⟩
theorem test_decode_rfsetup_fields :
    decode (.field 0xDA02#16) [0x01#8, 0x02#8, 0x02#8, 0x01#8] = .ok (.rfsetupSlot [0x02#8, 0x01#8], []) ∧
    decode (.field 0xDA02#16) [0x20#8, 0x00#8] = .ok (.rfsetupEnabled [], []) ∧
    decode (.field 0xDA02#16) [0x21#8, 0x00#8] = .ok (.rfsetupChannel [], []) ∧
    decode (.field 0xDA02#16) [0x22#8, 0x00#8] = .ok (.rfsetupBand [], []) ∧
    decode (.field 0xDA02#16) [0x23#8, 0x00#8] = .ok (.rfsetupThreshold [], []) ∧
    decode (.field 0xDA02#16) [0x24#8, 0x00#8] = .ok (.rfsetupGain [], []) ∧
    decode (.field 0xDA02#16) [0x25#8, 0x02#8, 0xA8#8, 0x16#8] = .ok (.rfsetupFreq [0xA8#8, 0x16#8], []) ∧
    decode (.field 0xDA02#16) [0x26#8, 0x00#8] = .ok (.rfsetupUnknown 0x26#8 [], []) :=
  ⟨rfl, rfl, rfl, rfl, rfl, rfl, rfl, rfl⟩
theorem test_decode_statectl_and_settings_fields :
    decode (.field 0xDA04#16) [0x20#8, 0x01#8, 0x01#8] = .ok (.statectlGate [0x01#8], []) ∧
    decode (.field 0xDA04#16) [0x01#8, 0x01#8, 0x02#8] = .ok (.statectlUnknown 0x01#8 [0x02#8], []) ∧
    decode (.field 0xDA07#16) [0x22#8, 0x02#8, 0xE8#8, 0x03#8] = .ok (.settingsStatusint [0xE8#8, 0x03#8], []) ∧
    decode (.field 0xDA07#16) [0x26#8, 0x04#8, 0x88#8, 0x13#8, 0x00#8, 0x00#8, 0x5B#8] =
      .ok (.settingsMinlap [0x88#8, 0x13#8, 0x00#8, 0x00#8], [0x5B#8]) ∧
    decode (.field 0xDA07#16) [0x20#8, 0x00#8] = .ok (.settingsUnknown 0x20#8 [], []) :=
  ⟨rfl, rfl, rfl, rfl, rfl⟩
theorem test_decode_passing_fields :
    decode (.field 0xDA09#16) [0x01#8, 0x01#8, 0x02#8] = .ok (.passingSlot [0x02#8], []) ∧
    decode (.field 0xDA09#16) [0x02#8, 0x02#8, 0x40#8, 0x42#8] = .ok (.passingRtc [0x40#8, 0x42#8], []) ∧
    decode (.field 0xDA09#16) [0x20#8, 0x00#8] = .ok (.passingDecoder [], []) ∧
    decode (.field 0xDA09#16) [0x21#8, 0x00#8] = .ok (.passingNumber [], []) ∧
    decode (.field 0xDA09#16) [0x22#8, 0x00#8] = .ok (.passingPeak [], []) ∧
    decode (.field 0xDA09#16) [0x23#8, 0x00#8] = .ok (.passingFlags [], []) ∧
    decode (.field 0xDA09#16) [0x03#8, 0x00#8] = .ok (.passingUnknown 0x03#8 [], []) :=
  ⟨rfl, rfl, rfl, rfl, rfl, rfl, rfl⟩
theorem test_decode_status_fields :
    decode (.field 0xDA0A#16) [0x01#8, 0x01#8, 0x04#8] = .ok (.statusSlot [0x04#8], []) ∧
    decode (.field 0xDA0A#16) [0x03#8, 0x02#8, 0x00#8, 0x00#8, 0x5B#8] = .ok (.statusFlags [0x00#8, 0x00#8], [0x5B#8]) ∧
    decode (.field 0xDA0A#16) [0x21#8, 0x02#8, 0x3C#8, 0x0D#8] = .ok (.statusBatt [0x3C#8, 0x0D#8], []) ∧
    decode (.field 0xDA0A#16) [0x22#8, 0x00#8] = .ok (.statusLastrssi [], []) ∧
    decode (.field 0xDA0A#16) [0x23#8, 0x01#8, 0x01#8] = .ok (.statusGate [0x01#8], []) ∧
    decode (.field 0xDA0A#16) [0x24#8, 0x00#8] = .ok (.statusDetect [], []) ∧
    decode (.field 0xDA0A#16) [0x02#8, 0x00#8] = .ok (.statusUnknown 0x02#8 [], []) :=
  ⟨rfl, rfl, rfl, rfl, rfl, rfl, rfl⟩
theorem test_decode_other_fields :
    decode (.field 0xDA0C#16) [0x02#8, 0x01#8, 0x80#8] = .ok (.timeRtc [0x80#8], []) ∧
    decode (.field 0xDA0C#16) [0x20#8, 0x00#8] = .ok (.timeTrt [], []) ∧
    decode (.field 0xDA0C#16) [0x01#8, 0x00#8] = .ok (.timeUnknown 0x01#8 [], []) ∧
    decode (.field 0xDA08#16) [0x20#8, 0x01#8, 0x07#8] = .ok (.descAny 0x20#8 [0x07#8], []) ∧
    decode (.field 0xFFFF#16) [0x55#8, 0x01#8, 0x07#8] = .ok (.errorAny 0x55#8 [0x07#8], []) :=
  ⟨rfl, rfl, rfl, rfl, rfl⟩
/-- A field longer than what remains is truncated before its tag is looked up (R216); no record, no field. -/
theorem test_decode_rejects :
    decode (.field 0xDA0A#16) [0x21#8, 0x04#8, 0x3C#8, 0x0D#8, 0x5B#8] = .error (.truncatedField 0x21#8) ∧
    decode (.field 0xDA03#16) [0x21#8, 0x00#8] = .error (.unrecognisedRecord 0xDA03#16) ∧
    decode (.field 0xDA0A#16) [0x21#8] = .error .tooShort ∧
    decode .frame [0x01#8] = .error .tooShort := ⟨rfl, rfl, rfl, rfl⟩

/-- Dispatch words of R123, one of each format, read by the decoder. -/
theorem test_table_words :
    decodeTableWord 8 0x5B = some .byteEnd ∧
    decodeTableWord 16 0x5C9A = some (.escPair 0x9A#8) ∧
    decodeTableWord 16 0xDA09 = some .passing ∧
    decodeTableWord 16 0x0000 = some (.frameUnknown 0x0000#16) ∧
    decodeTableWord 24 0xDA0126 = some (.rssiX26 []) ∧
    decodeTableWord 24 0xFFFF55 = some (.errorAny 0x55#8 []) ∧
    decodeTableWord 24 0xDA0301 = none ∧
    decodeTableWord 8 0x100 = none := ⟨rfl, rfl, rfl, rfl, rfl, rfl, rfl, rfl⟩

/-! ## The placed word is what the next step runs -/

theorem test_fetch_byte : bufOf (step (blank.withFetchWord 8 0x5A)) = [0x5A#8] := by decide +kernel
theorem test_fetch_pair : (workOf (step (blank.withFetchWord 16 0x5C9A))).u = [0x5A#8] := by decide +kernel
theorem test_fetch_frame : (workOf (step (blank.withFetchWord 16 0xDA07))).rtype = 0xDA07#16 ∧
    phaseOf (step (blank.withFetchWord 16 0xDA07)) = .walk := by decide +kernel
theorem test_fetch_unknown_frame : logOf (step (blank.withFetchWord 16 0xDA03)) =
    [⟨.unknownType, some 0xDA03#16, none⟩] := by decide +kernel
theorem test_fetch_field : logOf (step (blank.withFetchWord 24 0xDA0126)) =
    [⟨.unknownTag, some 0xDA01#16, some 0x26#8⟩] := by decide +kernel

/-! ## Stream bytes (examples of R194 to R198) -/

theorem test_start_opens : bufOf (exec .byteStart blank) = [0x5A#8] := rfl
theorem test_start_is_data_in_collect : bufOf (exec .byteStart { blank with rxbuf := [0x5A#8, 0x01#8] }) =
    [0x5A#8, 0x01#8, 0x5A#8] := rfl
theorem test_end_in_hunt : phaseOf (exec .byteEnd blank) = .idle := rfl
theorem test_end_completes : (workOf (exec .byteEnd { blank with rxbuf := [0x5A#8] })).frm = [0x5A#8, 0x5B#8] ∧
    bufOf (exec .byteEnd { blank with rxbuf := [0x5A#8] }) = [] := ⟨rfl, rfl⟩
theorem test_esc_in_hunt : bufOf (exec .byteEsc blank) = [] := rfl
theorem test_esc_in_collect : bufOf (exec .byteEsc { blank with rxbuf := [0x5A#8] }) = [0x5A#8, 0x5C#8] := rfl
theorem test_data_in_hunt : bufOf (exec (.byteData 0x01#8) blank) = [] := rfl
/-- BUF_CAP 4, as in vector X9: the fifth byte is fatal and `RXBUF` keeps four. -/
theorem test_data_overflows : exec (.byteData 0x04#8)
      { blank with params := { params8 with bufCap := some 4 }, rxbuf := [0x5A#8, 0x01#8, 0x02#8, 0x03#8], phase := .scan,
                   chunk := [0x05#8] } =
    .next { blank with
      params := { params8 with bufCap := some 4 }, rxbuf := [0x5A#8, 0x01#8, 0x02#8, 0x03#8], faultReg := .bufOverflow,
      logq := [⟨.bufOverflow, none, none⟩], replies := [.aborted] } := rfl

/-! ## The escape pair (R172: `5c 00` yields 0xC0, `5c 3f` 0xFF) -/

theorem test_pair_of_end : (workOf (exec (.escPair 0x9B#8) blank)).u = [0x5B#8] := rfl
theorem test_pair_wraps : (workOf (exec (.escPair 0x3F#8) blank)).u = [0xFF#8] := rfl

/-! ## Frames -/

theorem test_frame_starts_walk_at_7 :
    (workOf (exec .status { blank with work := { Work.empty with u := [0x5A#8, 0x08#8, 0, 0, 0, 0x0A#8, 0xDA#8, 0x5B#8] } })).p =
      [0x5B#8] := rfl
theorem test_frame_rssi : (workOf (exec .rssi blank)).rtype = 0xDA01#16 := rfl
theorem test_frame_rfsetup : (workOf (exec .rfsetup blank)).rtype = 0xDA02#16 := rfl
theorem test_frame_statectl : (workOf (exec .statectl blank)).rtype = 0xDA04#16 := rfl
theorem test_frame_settings : (workOf (exec .settings blank)).rtype = 0xDA07#16 := rfl
theorem test_frame_desc : (workOf (exec .desc blank)).rtype = 0xDA08#16 := rfl
theorem test_frame_passing : (workOf (exec .passing blank)).rtype = 0xDA09#16 := rfl
theorem test_frame_time : (workOf (exec .time blank)).rtype = 0xDA0C#16 := rfl
theorem test_frame_error : (workOf (exec .error blank)).rtype = 0xFFFF#16 := rfl
theorem test_frame_unknown : logOf (exec (.frameUnknown 0xDA03#16) blank) =
    [⟨.unknownType, some 0xDA03#16, none⟩] := rfl

/-! ## Fields (vectors F1 to F21, P1 to P4) -/

theorem test_rssi_slot : (workOf (exec (.rssiSlot [0x02#8]) blank)).curslot = some 1 := rfl
theorem test_rssi_slot_zero : (workOf (exec (.rssiSlot [0x00#8, 0x00#8]) blank)).curslot = some 0 := rfl
theorem test_rssi_min : (devOf (exec (.rssiMin [0x00#8, 0x00#8, 0x48#8, 0x44#8]) (inSlot 7))).rssiMin =
    [(7, 0x44480000#32)] := rfl
theorem test_rssi_min_slot_range : logOf (exec (.rssiMin [0x00#8, 0x00#8, 0x48#8, 0x44#8]) (inSlot 8)) =
    [⟨.slotRange, some 0xDA01#16, some 0x20#8⟩] := rfl
theorem test_rssi_max : (devOf (exec (.rssiMax [0x00#8, 0x00#8, 0x7A#8, 0x44#8]) (inSlot 1))).rssiMax =
    [(1, 0x447A0000#32)] := rfl
theorem test_rssi_mean : (devOf (exec (.rssiMean [0x00#8, 0x80#8, 0x62#8, 0x44#8]) (inSlot 1))).rssiMean =
    [(1, 0x44628000#32)] := rfl
theorem test_rssi_mean_no_slot : logOf (exec (.rssiMean [0x00#8, 0x80#8, 0x62#8, 0x44#8]) blank) =
    [⟨.noSlot, some 0xDA01#16, some 0x22#8⟩] := rfl
theorem test_rssi_x23 : logOf (exec (.rssiX23 [0xE8#8, 0x03#8, 0x00#8, 0x00#8]) blank) =
    [⟨.unknownTag, some 0xDA01#16, some 0x23#8⟩] := rfl
theorem test_rssi_x26 : logOf (exec (.rssiX26 []) blank) = [⟨.unknownTag, some 0xDA01#16, some 0x26#8⟩] := rfl
theorem test_rssi_unknown : logOf (exec (.rssiUnknown 0x99#8 []) blank) =
    [⟨.unknownTag, some 0xDA01#16, some 0x99#8⟩] := rfl
theorem test_rfsetup_slot : (workOf (exec (.rfsetupSlot [0x02#8, 0x01#8]) blank)).curslot = some 257 := rfl
theorem test_rfsetup_enabled : (devOf (exec (.rfsetupEnabled [0x01#8, 0x00#8]) (inSlot 2))).rfEnabled = [(2, 1)] := rfl
theorem test_rfsetup_channel : (devOf (exec (.rfsetupChannel [0x02#8, 0x00#8]) (inSlot 2))).rfChannel = [(2, 2)] := rfl
theorem test_rfsetup_band : (devOf (exec (.rfsetupBand [0x01#8, 0x00#8]) (inSlot 2))).rfBand = [(2, 1)] := rfl
theorem test_rfsetup_threshold : (devOf (exec (.rfsetupThreshold [0x00#8, 0x00#8, 0x48#8, 0x44#8]) (inSlot 2))).rfThreshold =
    [(2, 0x44480000#32)] := rfl
theorem test_rfsetup_gain : (devOf (exec (.rfsetupGain [0x33#8, 0x00#8]) (inSlot 2))).rfGain = [(2, 51)] := rfl
theorem test_rfsetup_freq : (devOf (exec (.rfsetupFreq [0xA8#8, 0x16#8])
      { inSlot 2 with dev := { DeviceModel.empty with rfFreq := [(1, 7), (3, 9)] } })).rfFreq =
    [(1, 7), (2, 5800), (3, 9)] := rfl
theorem test_rfsetup_unknown : logOf (exec (.rfsetupUnknown 0x26#8 []) blank) =
    [⟨.unknownTag, some 0xDA02#16, some 0x26#8⟩] := rfl
theorem test_statectl_gate : (devOf (exec (.statectlGate [0x01#8]) blank)).gateState = some .active ∧
    (devOf (exec (.statectlGate [0x01#8]) blank)).gateRaw = some 1 := ⟨rfl, rfl⟩
theorem test_statectl_gate_no_code : (devOf (exec (.statectlGate [0xFF#8]) blank)).gateState = some .idle ∧
    (devOf (exec (.statectlGate [0xFF#8]) blank)).gateRaw = some 255 := ⟨rfl, rfl⟩
theorem test_statectl_unknown : logOf (exec (.statectlUnknown 0x01#8 [0x02#8]) blank) =
    [⟨.unknownTag, some 0xDA04#16, some 0x01#8⟩] := rfl
theorem test_settings_statusint : logOf (exec (.settingsStatusint [0xE8#8, 0x03#8]) blank) =
    [⟨.unknownTag, some 0xDA07#16, some 0x22#8⟩] := rfl
theorem test_settings_minlap : (devOf (exec (.settingsMinlap [0x88#8, 0x13#8, 0x00#8, 0x00#8]) blank)).minLapTime =
    some 5000 := rfl
theorem test_settings_unknown : logOf (exec (.settingsUnknown 0x99#8 []) blank) =
    [⟨.unknownTag, some 0xDA07#16, some 0x99#8⟩] := rfl
theorem test_desc_any : exec (.descAny 0x20#8 [0x01#8]) blank = .next blank := rfl
theorem test_error_any : exec (.errorAny 0x55#8 [0x01#8]) blank = .next blank := rfl
theorem test_passing_slot : (workOf (exec (.passingSlot [0x02#8]) blank)).curslot = some 1 ∧
    (workOf (exec (.passingSlot [0x02#8]) blank)).pb.pilotId = some 1 := ⟨rfl, rfl⟩
theorem test_passing_rtc_before_correlation :
    (devOf (exec (.passingRtc [0x0A#8, 0, 0, 0, 0, 0, 0, 0])
      { blank with work := { Work.empty with pb := { PassingBuilder.empty with pilotId := some 0 } } })).passing =
    [⟨some 0, none, some 10, none, none, none, none⟩] := rfl
/-- Vector P4: correlation 493/5 = 98.6 s, device time 5 s. -/
theorem test_passing_rtc_local_time :
    ((devOf (exec (.passingRtc [0x40#8, 0x4B#8, 0x4C#8, 0, 0, 0, 0, 0])
      { blank with dev := { DeviceModel.empty with rtcLocalSeconds := some (mkRat 493 5) } })).passing.map
        PassingRecord.localTime) = [some (mkRat 518 5)] := by decide +kernel
theorem test_passing_decoder : (workOf (exec (.passingDecoder [0x78#8, 0x56#8, 0x34#8, 0x12#8]) blank)).pb.decoderId =
    some 0x12345678#64 := rfl
theorem test_passing_number : (workOf (exec (.passingNumber [0x07#8, 0, 0, 0]) blank)).pb.passingNumber = some 7 := rfl
theorem test_passing_peak : (workOf (exec (.passingPeak [0xD0#8, 0x07#8]) blank)).pb.peakHeight = some 2000 := rfl
theorem test_passing_flags : (workOf (exec (.passingFlags [0x01#8, 0x00#8]) blank)).pb.flags = some 1 := rfl
theorem test_passing_bad_width : logOf (exec (.passingRtc [0x01#8, 0x02#8, 0x03#8]) blank) =
    [⟨.badWidth, some 0xDA09#16, some 0x02#8⟩] := rfl
theorem test_passing_unknown : logOf (exec (.passingUnknown 0x30#8 []) blank) =
    [⟨.unknownTag, some 0xDA09#16, some 0x30#8⟩] := rfl
theorem test_status_slot : (workOf (exec (.statusSlot [0x04#8]) blank)).curslot = some 3 := rfl
theorem test_status_flags : (devOf (exec (.statusFlags [0x00#8, 0x00#8]) blank)).statusFlags = some 0 := rfl
theorem test_status_batt : (devOf (exec (.statusBatt [0x3C#8, 0x0D#8]) blank)).battMv = some 3388 := rfl
theorem test_status_batt_bad_width : logOf (exec (.statusBatt [0x01#8, 0x02#8, 0x03#8]) blank) =
    [⟨.badWidth, some 0xDA0A#16, some 0x21#8⟩] := rfl
theorem test_status_lastrssi : (devOf (exec (.statusLastrssi [0x00#8, 0x80#8, 0x6A#8, 0x44#8]) (inSlot 2))).rssiLast =
    [(2, 0x446A8000#32)] := rfl
theorem test_status_gate : (devOf (exec (.statusGate [0x01#8]) blank)).gateState = some .active := rfl
theorem test_status_detect : (devOf (exec (.statusDetect [0x05#8, 0, 0, 0]) blank)).detectCount = some 5 := rfl
theorem test_status_unknown : logOf (exec (.statusUnknown 0x02#8 []) blank) =
    [⟨.unknownTag, some 0xDA0A#16, some 0x02#8⟩] := rfl
/-- Vector P4: request at 100, answer at 100.5, device time 2 s: 100.5 - 0.25 - 2 = 98.25 (R281). -/
theorem test_time_rtc_correlates :
    (devOf (exec (.timeRtc [0x80#8, 0x84#8, 0x1E#8, 0, 0, 0, 0, 0])
      { blank with now := mkRat 201 2, dev := { DeviceModel.empty with rtcReqAt := some 100 } })).rtcLocalSeconds =
    some (mkRat 393 4) := by decide +kernel
theorem test_time_rtc_without_request :
    (devOf (exec (.timeRtc [0x40#8, 0x54#8, 0x89#8, 0, 0, 0, 0, 0]) blank)).rtcTime = some 9000000 ∧
    (devOf (exec (.timeRtc [0x40#8, 0x54#8, 0x89#8, 0, 0, 0, 0, 0]) blank)).rtcLocalSeconds = none := ⟨rfl, rfl⟩
theorem test_time_trt : (devOf (exec (.timeTrt [0x01#8, 0, 0, 0, 0, 0, 0, 0]) blank)).timeRtcTime = some 1 := rfl
theorem test_time_unknown : logOf (exec (.timeUnknown 0x21#8 [0x05#8]) blank) =
    [⟨.unknownTag, some 0xDA0C#16, some 0x21#8⟩] := rfl

/-! ## Pure functions: values of the spec's vectors (40_crc16, 41_escape, 46_command_encoder) -/

theorem test_crc_01 : crc16 crcTable [0x01#8] = 0xC0C1#16 := by decide +kernel
theorem test_crc_serial_01 : crcSerial [0x01#8] = 0xC0C1#16 := by decide +kernel
theorem test_unescape : unescape [0x5A#8, 0x01#8, 0x5C#8, 0x9A#8, 0x02#8, 0x5B#8] =
    [0x5A#8, 0x01#8, 0x5A#8, 0x02#8, 0x5B#8] := rfl
theorem test_escape : escape [0x5A#8, 0x5A#8, 0x5B#8, 0x5C#8, 0x5B#8] =
    [0x5A#8, 0x5C#8, 0x9A#8, 0x5C#8, 0x9B#8, 0x5C#8, 0x9C#8, 0x5B#8] := rfl
/-- The frame `SETTINGS` with MINLAP 5000 (95_test_vectors). -/
theorem test_build_frame : buildFrame crcTable 0xDA07#16 [0x26#8, 0x04#8, 0x88#8, 0x13#8, 0x00#8, 0x00#8] =
    some [0x5A#8, 0x0E#8, 0x00#8, 0x04#8, 0xE1#8, 0x07#8, 0xDA#8, 0x26#8, 0x04#8, 0x88#8, 0x13#8, 0x00#8, 0x00#8, 0x5B#8] := by
  decide +kernel

/-! ## Witnesses: states and operands that meet the hypotheses of the obligations

One theorem per obligation with hypotheses (several where its clauses have different ones), at boundary values
where a clause has a range. -/

theorem witness_decode_of_encode : (Instr.byteData 0x59#8).wf = true ∧ (Instr.frameUnknown 0xDA03#16).wf = true ∧
    (Instr.rssiUnknown 0x24#8 [0x01#8]).wf = true ∧ (Instr.passingRtc [0x0A#8]).wf = true ∧
    (Instr.escPair 0xFF#8).wf = true := ⟨rfl, rfl, rfl, rfl, rfl⟩
theorem witness_encode_of_decode : decode (.field 0xDA0A#16) [0x24#8, 0x00#8, 0x5B#8] = .ok (.statusDetect [], [0x5B#8]) ∧
    decode .frame [0x03#8, 0xDA#8] = .ok (.frameUnknown 0xDA03#16, []) := ⟨rfl, rfl⟩
theorem witness_operand_widths : ([] : List Byte).length ≠ 1 ∧ [0x01#8, 0x02#8, 0x03#8].length ≠ 2 ∧
    uintVal [0x01#8, 0x02#8, 0x03#8] = none ∧ f32Val [0x01#8, 0x02#8] = none := by
  exact ⟨by decide, by decide, rfl, rfl⟩
theorem witness_slot_conversion : 1 ≤ (1#64).toNat ∧ 1 ≤ (BitVec.allOnes 64).toNat ∧
    (2 ^ 64 - 2) + 1 < 2 ^ 64 := by decide
theorem params8_wf : params8.wf = true := by decide +kernel
theorem witness_gate_decode : params8.wf = true ∧ (3#64).toNat = (params8.gateCode.code .shutdown).toNat ∧
    ∀ g, (params8.gateCode.code g).toNat ≠ (255#64).toNat := by
  exact ⟨params8_wf, rfl, fun g => by cases g <;> decide⟩
theorem witness_encoded_integers : tlvInt 0x26#8 4 5000 = some [0x26#8, 0x04#8, 0x88#8, 0x13#8, 0x00#8, 0x00#8] ∧
    tlvInt 0x20#8 1 255 = some [0x20#8, 0x01#8, 0xFF#8] ∧ tlvInt 0x20#8 1 256 = none := ⟨rfl, rfl, rfl⟩
theorem witness_encoders : 8 ∈ [1, 2, 4, 8] ∧ 2 ^ 64 - 1 < 2 ^ (8 * 8) ∧ 3 ∉ [1, 2, 4, 8] ∧ 2 ^ (8 * 1) ≤ 256 ∧
    (List.replicate 255 0#8).length ≤ 255 ∧ 255 < (List.replicate 256 0#8).length := by
  simp only [List.length_replicate]
  decide
theorem witness_unlisted_code : 0xDA03#16 ∉ recognisedCodes ∧ 0x01DA#16 ∉ recognisedCodes := by decide
theorem witness_unescape_plain : 0x9A#8 ≠ 0x5C#8 := by decide
theorem witness_room (s : State) (h : s.params.bufCap = none) : Room s := by
  intro cap hc
  rw [h] at hc
  cases hc
theorem witness_hunt : blank.rxbuf = [] ∧ Room blank := ⟨rfl, witness_room _ rfl⟩
theorem witness_collect : ∃ s : State, s.rxbuf ≠ [] ∧ Room s :=
  ⟨{ blank with rxbuf := [0x5A#8] }, by decide, witness_room _ rfl⟩
theorem witness_overflow : ∃ s : State, s.params.bufCap = some 1 ∧ 1 ≤ s.rxbuf.length ∧ s.rxbuf ≠ [] :=
  ⟨{ blank with params := { params8 with bufCap := some 1 }, rxbuf := [0x5A#8] }, rfl, by decide, by decide⟩
theorem witness_overflow_on_start : ∃ s : State, s.params.bufCap = some 0 ∧ 0 ≤ s.rxbuf.length ∧ s.rxbuf = [] :=
  ⟨{ blank with params := { params8 with bufCap := some 0 } }, rfl, by decide, rfl⟩

/-- A block judging an unescaped frame. -/
def judging (u : List Byte) : State := { blank with eng := .ready, phase := .check, work := { Work.empty with u := u } }
theorem witness_too_short : (judging (List.replicate 7 0x5A#8)).phase = .check ∧
    (judging (List.replicate 7 0x5A#8)).work.u.length < 8 := ⟨rfl, by decide⟩
theorem witness_bad_start : 8 ≤ (judging (List.replicate 8 0#8)).work.u.length ∧
    (judging (List.replicate 8 0#8)).work.u.head? ≠ some 0x5A#8 := ⟨by decide, by decide⟩
theorem witness_crc_mismatch :
    8 ≤ (judging (List.replicate 8 0x5A#8)).work.u.length ∧ (judging (List.replicate 8 0x5A#8)).work.u.head? = some 0x5A#8 ∧
    crc16 (judging (List.replicate 8 0x5A#8)).crctab (((List.replicate 8 0x5A#8).set 3 0).set 4 0) ≠
      u16le ((List.replicate 8 0x5A#8).getD 3 0) ((List.replicate 8 0x5A#8).getD 4 0) := by decide +kernel
/-- The Time frame without fields, least length, its CRC in place. -/
theorem witness_checked_frame : ∃ lo hi : Byte, ([0x5B#8] : List Byte) ≠ [] ∧
    crc16 (judging []).crctab [0x5A#8, 0x08#8, 0x00#8, 0#8, 0#8, 0x0C#8, 0xDA#8, 0x5B#8] = u16le lo hi :=
  ⟨(crc16 crcTable [0x5A#8, 0x08#8, 0x00#8, 0#8, 0#8, 0x0C#8, 0xDA#8, 0x5B#8]).extractLsb' 0 8,
   (crc16 crcTable [0x5A#8, 0x08#8, 0x00#8, 0#8, 0#8, 0x0C#8, 0xDA#8, 0x5B#8]).extractLsb' 8 8, by decide,
   (Laws.u16le_codeBytes _).symm⟩
/-- Both clauses of every UINT field: an admitted width and one that is not. -/
theorem witness_int_fields : uintVal [0x02#8] = some 2 ∧ uintVal [0x01#8, 0x02#8, 0x03#8] = none ∧ uintVal [] = none :=
  ⟨rfl, rfl, rfl⟩
/-- The clauses of every per-slot field: bad width, no slot, slot MAX_SLOTS, slot MAX_SLOTS - 1. -/
theorem witness_slot_fields : f32Val [0x01#8] = none ∧ f32Val [0, 0, 0x48#8, 0x44#8] = some 0x44480000#32 ∧
    blank.work.curslot = none ∧ (inSlot 8).work.curslot = some 8 ∧ (inSlot 8).params.maxSlots ≤ 8 ∧
    (inSlot 7).work.curslot = some 7 ∧ 7 < (inSlot 7).params.maxSlots := by decide
theorem witness_commit_order : uintVal [0x02#8] = some 2 ∧ uintVal [0x0A#8] = some 10 ∧
    blank.work.pb = ⟨none, none, none, none, none, none⟩ ∧ blank.dev.rtcLocalSeconds = none := ⟨rfl, rfl, rfl, rfl⟩
theorem witness_fields : (Instr.passingRtc [0x0A#8]).field.isSome = true ∧
    (Instr.passingRtc [0x0A#8]).field = some (.passing, 0x02#8, [0x0A#8]) ∧
    (∃ t, exec (.passingRtc [0x0A#8]) blank = .next t) ∧
    (Instr.timeTrt []).field = some (.time, 0x20#8, []) ∧ (∃ t, exec (.timeTrt []) blank = .next t) :=
  ⟨rfl, rfl, ⟨_, rfl⟩, rfl, ⟨_, rfl⟩⟩
theorem witness_step_stream : ∃ s : State, s.phase = .scan ∧ decode .stream s.chunk = .ok (.byteStart, [0x11#8]) :=
  ⟨{ blank with phase := .scan, chunk := [0x5A#8, 0x11#8] }, rfl, rfl⟩
theorem witness_step_pair : ∃ s : State, s.phase = .unescape ∧ decode .escape s.work.fcur = .ok (.escPair 0x9A#8, [0x16#8]) :=
  ⟨{ blank with phase := .unescape, work := { Work.empty with fcur := [0x5C#8, 0x9A#8, 0x16#8] } }, rfl, rfl⟩
/-- The Settings frame of 95_test_vectors passes the checks and decodes. -/
theorem witness_step_frame : ∃ s : State, s.phase = .check ∧ judgeFrame s.crctab s.work.u = none ∧
    decode .frame ((zeroCrcField s.work.u).drop 5) =
      .ok (.settings, [0x26#8, 0x04#8, 0x88#8, 0x13#8, 0x00#8, 0x00#8, 0x5B#8]) :=
  ⟨judging [0x5A#8, 0x0E#8, 0x00#8, 0x04#8, 0xE1#8, 0x07#8, 0xDA#8, 0x26#8, 0x04#8, 0x88#8, 0x13#8, 0x00#8, 0x00#8, 0x5B#8],
   rfl, by decide +kernel, rfl⟩
/-- A block in the TLV walk of a Status frame. -/
def walking (p : List Byte) : State := { blank with
  eng := .ready, phase := .walk
  work := { Work.empty with rtype := 0xDA0A#16, u := [0x5A#8, 0, 0, 0, 0, 0x0A#8, 0xDA#8] ++ p, p := p } }
theorem witness_step_field : (walking [0x24#8, 0x01#8, 0x05#8, 0x5B#8]).phase = .walk ∧
    3 < (walking [0x24#8, 0x01#8, 0x05#8, 0x5B#8]).work.p.length ∧
    decode (.field (walking [0x24#8, 0x01#8, 0x05#8, 0x5B#8]).work.rtype) (walking [0x24#8, 0x01#8, 0x05#8, 0x5B#8]).work.p =
      .ok (.statusDetect [0x05#8], [0x5B#8]) := ⟨rfl, by decide, rfl⟩
theorem witness_walk_end : (walking [0x24#8, 0x01#8, 0x05#8]).phase = .walk ∧
    (walking [0x24#8, 0x01#8, 0x05#8]).work.p.length ≤ 3 := ⟨rfl, by decide⟩
/-- The field that takes exactly the bytes that remain, END included (R216). -/
theorem witness_field_cut : (walking [0x21#8, 0x02#8, 0x3C#8, 0x5B#8]).work.rtype = RecordType.status.code ∧
    (walking [0x21#8, 0x02#8, 0x3C#8, 0x5B#8]).work.p = [0x21#8, 0x02#8, 0x3C#8, 0x5B#8] ∧
    (0x02#8).toNat ≤ [0x3C#8, 0x5B#8].length := ⟨rfl, rfl, by decide⟩
theorem witness_truncated : (walking [0x21#8, 0x03#8, 0x3C#8, 0x5B#8]).work.p = [0x21#8, 0x03#8, 0x3C#8, 0x5B#8] ∧
    2 ≤ [0x3C#8, 0x5B#8].length ∧ [0x3C#8, 0x5B#8].length < (0x03#8).toNat := ⟨rfl, by decide, by decide⟩

/-- A block between operations is sound, whatever is queued. -/
theorem sound_between (q : List HostOp) : Sound { blank with hostq := q } :=
  ⟨params8_wf, rfl, ⟨nofun, nofun⟩, fun h => absurd rfl h, .inl rfl, nofun, fun _ => rfl, fun _ => rfl,
   nofun, nofun, nofun, nofun, memory_wf_empty 8⟩
/-- A block in the middle of a walk is sound. -/
theorem sound_walking : Sound (walking [0x24#8, 0x01#8, 0x05#8, 0x5B#8]) :=
  ⟨params8_wf, rfl, ⟨nofun, nofun⟩, fun _ => ⟨rfl, rfl⟩, .inl rfl, nofun, nofun, nofun, nofun, nofun, nofun,
   fun _ => ⟨by decide, ⟨[], rfl⟩⟩, by decide +kernel⟩
/-- A block collecting a frame is sound, also at its capacity. -/
theorem sound_collecting : Sound { blank with
    params := { params8 with bufCap := some 2 }, eng := .ready, phase := .scan, rxbuf := [0x5A#8, 0x01#8], chunk := [0x02#8] } :=
  ⟨params8_wf, rfl, ⟨nofun, nofun⟩, fun _ => ⟨rfl, rfl⟩, .inr ⟨rfl, by decide⟩,
   fun cap h => by cases h; decide, nofun, fun _ => rfl, nofun, nofun, nofun, nofun, memory_wf_empty 8⟩
/-- A faulted block is sound. -/
theorem sound_faulted (q : List HostOp) : Sound { blank with eng := .ready, faultReg := .bufOverflow, hostq := q } :=
  ⟨params8_wf, rfl, ⟨nofun, nofun⟩, fun h => absurd rfl h, .inl rfl, nofun, fun _ => rfl, fun _ => rfl,
   nofun, nofun, nofun, nofun, memory_wf_empty 8⟩
/-- A block with a candidate before `Unescape`, and one with it before the checks, is sound. -/
theorem sound_decoding : Sound (beginFrame [0x5A#8, 0x5C#8, 0x9A#8, 0x5B#8] { blank with eng := .ready }) ∧
    Sound (judging []) := by
  refine ⟨⟨params8_wf, rfl, ⟨nofun, nofun⟩, fun _ => ⟨rfl, rfl⟩, .inl rfl, nofun, nofun, ?_,
    fun _ => ⟨rfl, rfl, rfl⟩, fun _ => rfl, nofun, nofun, by decide +kernel⟩,
    ⟨params8_wf, rfl, ⟨nofun, nofun⟩, fun _ => ⟨rfl, rfl⟩, .inl rfl, nofun, nofun, ?_,
    fun _ => ⟨rfl, rfl, rfl⟩, nofun, fun _ => rfl, nofun, by decide +kernel⟩⟩ <;>
  exact fun h => h.elim nofun nofun

theorem witness_ingest : ∃ s : State, Sound s ∧ s.phase = .idle ∧ s.faultReg = .none ∧ s.params.bufCap = none ∧
    s.hostq = [.ingest [0x5A#8, 0x5B#8] 1] := ⟨_, sound_between _, rfl, rfl, rfl, rfl⟩
/-- A capacity of 2: a frame of 2 bytes is cut, the third byte of the next one overflows (R198). -/
theorem witness_ingest_capacity :
    (∃ s : State, Sound s ∧ s.phase = .idle ∧ s.faultReg = .none ∧ s.params.bufCap = some 2 ∧
      s.hostq = [.ingest [0x5A#8, 0x5B#8, 0x5A#8, 0x01#8, 0x02#8] 1]) ∧
    extractCapped (some 2) 6 [0x00#8, 0x5A#8, 0x5B#8, 0x5A#8, 0x01#8, 0x02#8] =
      ([[0x5A#8, 0x5B#8]], [0x5A#8, 0x01#8], true) ∧
    extractCapped (some 2) 6 [0x5A#8, 0x5B#8, 0x5A#8, 0x01#8] = ([[0x5A#8, 0x5B#8]], [0x5A#8, 0x01#8], false) :=
  ⟨⟨{ blank with params := { params8 with bufCap := some 2 },
                 hostq := [.ingest [0x5A#8, 0x5B#8, 0x5A#8, 0x01#8, 0x02#8] 1] },
    ⟨params8_wf, rfl, ⟨nofun, nofun⟩, fun h => absurd rfl h, .inl rfl, fun _ _ => Nat.zero_le _, fun _ => rfl,
     fun _ => rfl, nofun, nofun, nofun, nofun, memory_wf_empty 8⟩, rfl, rfl, rfl, rfl⟩, rfl, rfl⟩
/-- Candidates of every clause of one outcome per frame: too short, bad START, bad CRC, a frame of an unlisted type,
and Settings frames whose field is whole (with an outcome) and, its length one more than what remains, truncated. -/
theorem witness_one_outcome :
    (unescape (List.replicate 7 0x5A#8)).length < 8 ∧
    (unescape (List.replicate 8 0#8)).head? ≠ some 0x5A#8 ∧ 8 ≤ (unescape (List.replicate 8 0#8)).length ∧
    (decodeFrameSpec (List.replicate 8 0x5A#8) blank).logq = [⟨.crcMismatch, none, none⟩] ∧
    ((buildFrame crcTable 0xDA03#16 []).map fun frm => (decodeFrameSpec frm blank).logq) =
      some [⟨.unknownType, some 0xDA03#16, none⟩] ∧
    ((buildFrame crcTable 0xDA07#16 [0x99#8, 0x01#8, 0x00#8]).map fun frm =>
      ((decodeFrameSpec frm blank).evq, (decodeFrameSpec frm blank).logq)) =
      some ([⟨0xDA07#16, none, none⟩], [⟨.unknownTag, some 0xDA07#16, some 0x99#8⟩]) ∧
    ((buildFrame crcTable 0xDA07#16 [0x26#8, 0x03#8, 0x00#8]).map fun frm =>
      ((decodeFrameSpec frm blank).evq, (decodeFrameSpec frm blank).logq)) =
      some ([], [⟨.truncatedTlv, some 0xDA07#16, some 0x26#8⟩]) := by decide +kernel
theorem witness_direct_decode : ∃ s : State, Sound s ∧ s.phase = .idle ∧ s.faultReg = .none ∧
    s.hostq = [.decodeFrame [] 1] := ⟨_, sound_between _, rfl, rfl, rfl⟩
theorem witness_chunking : ∃ s : State, Sound s ∧ s.phase = .idle ∧ s.hostq = [] := ⟨_, sound_between [], rfl, rfl⟩
/-- For the invariant: sound states with a next state, within a walk, in the extractor and between operations. -/
theorem witness_sound_steps : (∃ s t, Sound s ∧ s.phase = .walk ∧ step s = .next t) ∧
    (∃ s t, Sound s ∧ s.phase = .scan ∧ step s = .next t) ∧ (∃ s t, Sound s ∧ s.phase = .idle ∧ step s = .next t) :=
  ⟨⟨_, _, sound_walking, rfl, rfl⟩, ⟨_, _, sound_collecting, rfl, rfl⟩, ⟨_, _, sound_between [.reset], rfl, rfl⟩⟩
/-- For the rules on registers and queues: steps that write a register, emit an outcome, take an outcome. -/
theorem witness_whole_machine : (∃ t, step (walking [0x24#8, 0x01#8, 0x05#8, 0x5B#8]) = .next t) ∧
    (∃ t, step (walking [0x5B#8]) = .next t) ∧ ¬ Performs (walking [0x5B#8]) .reset ∧
    (∃ t, step { blank with hostq := [.takeOutcome] } = .next t) ∧
    ¬ Performs { blank with hostq := [.takeOutcome] } .reset ∧
    Performs { blank with hostq := [.takeOutcome] } .takeOutcome :=
  ⟨⟨_, rfl⟩, ⟨_, rfl⟩, fun h => absurd h.1 nofun, ⟨_, rfl⟩, fun h => absurd h.2 nofun, rfl, rfl⟩
theorem witness_fault_sticky : ∃ s t : State, Sound s ∧ s.faultReg ≠ .none ∧ step s = .next t ∧ ¬ Performs s .reset :=
  ⟨_, _, sound_faulted [.init], nofun, rfl, fun h => absurd h.2 nofun⟩
theorem witness_faulted_refuses : ∃ (s : State) (op : HostOp), s.phase = .idle ∧ s.hostq = [op] ∧ s.faultReg ≠ .none ∧
    op ≠ .reset ∧ ∀ reg, op ≠ .read reg :=
  ⟨{ blank with faultReg := .bufOverflow, hostq := [.noteRtcRequest 3] }, .noteRtcRequest 3, rfl, rfl, nofun, nofun, nofun⟩
theorem witness_decoding : (∃ t, step (walking [0x5B#8]) = .next t ∧ (walking [0x5B#8]).phase = .walk) ∧
    (∃ t, step (beginFrame [0x5A#8] blank) = .next t ∧ (beginFrame [0x5A#8] blank).phase = .unescape) ∧
    (∃ t, step (judging [0x5A#8]) = .next t ∧ (judging [0x5A#8]).phase = .check) :=
  ⟨⟨_, rfl, rfl⟩, ⟨_, rfl, rfl⟩, ⟨_, rfl, rfl⟩⟩
theorem witness_constants : ∃ s t : State, step s = .next t ∧ s.crctab = crcTable := ⟨blank, _, rfl, rfl⟩
theorem witness_host_writes : ∃ s t : State, s.phase = .idle ∧ step s = .next t ∧ ¬ Performs s .reset ∧
    Performs s (.noteRtcRequest 3) :=
  ⟨{ blank with hostq := [.noteRtcRequest 3] }, _, rfl, rfl, fun h => absurd h.2 nofun, rfl, rfl⟩
theorem witness_reset : ∃ s : State, s.phase = .idle ∧ s.hostq = [.reset] ∧ s.faultReg ≠ .none :=
  ⟨{ blank with faultReg := .bufOverflow, hostq := [.reset] }, rfl, rfl, nofun⟩
theorem witness_init : (∃ s : State, s.phase = .idle ∧ s.hostq = [.init] ∧ s.faultReg = .none ∧ s.eng = .uninit) ∧
    (∃ s : State, s.phase = .idle ∧ s.hostq = [.init] ∧ s.faultReg = .none ∧ s.eng = .ready) :=
  ⟨⟨{ blank with hostq := [.init] }, rfl, rfl, rfl, rfl⟩, ⟨{ blank with hostq := [.init], eng := .ready }, rfl, rfl, rfl, rfl⟩⟩
theorem witness_host_operations (q : List HostOp) : ({ blank with hostq := q } : State).phase = .idle ∧
    ({ blank with hostq := q } : State).faultReg = .none ∧ ({ blank with hostq := q } : State).crctab = crcTable ∧
    ({ blank with hostq := q } : State).eng ≠ .failed ∧ (buildFrame crcTable 0xDA07#16 []).isSome = true ∧
    65527 < (List.replicate 65528 0#8).length :=
  ⟨rfl, rfl, rfl, nofun, by decide +kernel, by rw [List.length_replicate]; decide⟩
/-- A read under each fatal fault, and of the last slot below `MAX_SLOTS` and the first beyond it. -/
theorem witness_reads : ({ blank with faultReg := .bufOverflow, hostq := [.read .fault] } : State).phase = .idle ∧
    ({ blank with faultReg := .crcSelftestFail, hostq := [.read .eng] } : State).hostq = [.read .eng] ∧
    7 < blank.params.maxSlots ∧ blank.params.maxSlots ≤ 8 := ⟨rfl, rfl, by decide, by decide⟩
/-- An outcome to take, and none. -/
theorem witness_take : ({ blank with evq := [⟨0xDA0C#16, none, none⟩], hostq := [.takeOutcome] } : State).evq =
    ⟨0xDA0C#16, none, none⟩ :: [] ∧ ({ blank with hostq := [.takeOutcome] } : State).evq = [] := ⟨rfl, rfl⟩
/-- `REG_MAP` is a parameter: the address of a register is the one it assigns, or none (R12). -/
theorem test_reg_map :
    regAddress { params8 with regMap := [(.battMv, 0x40), (.rssiMin 2, 0x44)] } (.rssiMin 2) = some 0x44 ∧
    regAddress params8 .battMv = none := ⟨rfl, rfl⟩
theorem witness_views : 0xDA08#16 ∈ [0xDA04#16, 0xDA08#16, 0xFFFF#16] ∧
    slotGet { DeviceModel.empty with rfEnabled := [(2, 0)] }.rfEnabled 2 = some 0 ∧
    { DeviceModel.empty with battMv := some 3388 }.battMv = some 3388 := ⟨by decide, rfl, rfl⟩
theorem witness_crc_linear : [0x01#8, 0x02#8].length = [0x03#8, 0x04#8].length := rfl
theorem witness_single_bit : 1 < [0x01#8, 0x02#8].length ∧ 7 < 8 := by decide
theorem witness_escape_round_trip : ([0x5A#8, 0x5C#8, 0x5B#8] : List Byte).head? ≠ some 0x5C#8 ∧
    (2 ≤ [0x5A#8, 0x5C#8, 0x5B#8].length → [0x5A#8, 0x5C#8, 0x5B#8].getLast? ≠ some 0x5C#8) := by decide
theorem witness_built_frames : ([] : List Byte).length ≤ 65527 ∧ (List.replicate 65527 0#8).length ≤ 65527 ∧
    0x5A#8 ∉ [0x5B#8, 0x5C#8] := by
  refine ⟨by decide, ?_, by decide⟩
  rw [List.length_replicate]

end Sys2Proof.Tests
end

section
/-! ## Totality (R21): no instruction stops, and from a sound state no step does -/

namespace Sys2Proof.Machine

/-- The instructions that are no field are one call each of a total update; the fields are `exec_field_shape`. -/
theorem exec_completes (i : Instr) (s : State) : ∃ t, exec i s = .next t := by
  by_cases hf : i.field.isSome = true
  · obtain ⟨t, ht, -⟩ := exec_field_shape hf s
    exact ⟨t, ht⟩
  · cases i with
    | byteStart => exact ⟨accumulate START s, rfl⟩
    | byteEnd => exact ⟨closeFrame s, rfl⟩
    | byteEsc => exact ⟨collect ESC s, rfl⟩
    | byteData b => exact ⟨collect b s, rfl⟩
    | escPair x => exact ⟨pushUnescaped (unescapeByte x) s, rfl⟩
    | rssi => exact ⟨_, exec_frameInstr .rssi s⟩
    | rfsetup => exact ⟨_, exec_frameInstr .rfsetup s⟩
    | statectl => exact ⟨_, exec_frameInstr .statectl s⟩
    | settings => exact ⟨_, exec_frameInstr .settings s⟩
    | desc => exact ⟨_, exec_frameInstr .desc s⟩
    | passing => exact ⟨_, exec_frameInstr .passing s⟩
    | status => exact ⟨_, exec_frameInstr .status s⟩
    | time => exact ⟨_, exec_frameInstr .time s⟩
    | error => exact ⟨_, exec_frameInstr .error s⟩
    | frameUnknown rtype => exact ⟨dropUnknownType rtype s, rfl⟩
    | _ => exact absurd rfl hf

/-- Settles O41: `exec_completes`. -/
theorem everyInstructionCompletes : Obligations.EveryInstructionCompletes := exec_completes

theorem step_scan_completes {s : State} (h : s.phase = .scan) : ∃ t, step s = .next t := by
  match hc : s.chunk with
  | [] => exact ⟨_, step_scan_nil h hc⟩
  | b :: rest =>
    rw [step_scan_cons h hc]
    exact exec_completes _ _

theorem step_unescape_completes {s : State} (h : s.phase = .unescape) : ∃ t, step s = .next t := by
  by_cases hc : ∃ x rest, s.work.fcur = ESC :: x :: rest
  · obtain ⟨x, rest, hc⟩ := hc
    exact ⟨_, step_unescape_pair h hc⟩
  · exact ⟨_, step_unescape_copy h fun x rest he => hc ⟨x, rest, he⟩⟩

theorem step_check_completes {s : State} (h : s.phase = .check) : ∃ t, step s = .next t := by
  match hj : judgeFrame s.crctab s.work.u with
  | some c => exact ⟨_, step_check_drop h hj⟩
  | none =>
    rw [step_check_pass h hj]
    exact exec_completes _ _

/-- The only fault of the machine is a field under an unrecognised record type, which the premise excludes. -/
theorem step_walk_completes {s : State} (h : s.phase = .walk) (hr : s.work.rtype ∈ recognisedCodes) :
    ∃ t, step s = .next t := by
  rcases Nat.lt_or_ge 3 s.work.p.length with hl | hl
  · obtain ⟨tag, len, rest, hp⟩ : ∃ tag len rest, s.work.p = tag :: len :: rest :=
      match s.work.p, hl with
      | tag :: len :: rest, _ => ⟨tag, len, rest, rfl⟩
    rcases Nat.lt_or_ge rest.length len.toNat with ht | ht
    · exact ⟨_, step_walk_truncated h hp hl ht⟩
    · obtain ⟨r, hr⟩ := Option.isSome_iff_exists.1 ((Laws.ofCode_isSome_iff _).2 hr)
      rw [step_walk_field h (ofCode_eq_some hr) hp hl ht]
      exact exec_completes _ _
  · exact ⟨_, step_walk_end h hl⟩

/-- Settles O40, phase by phase: only the walk needs soundness, for its record type (`Sound.walking`, R212). -/
theorem soundStatesAlwaysStep : Obligations.SoundStatesAlwaysStep := by
  intro s hs
  cases hp : s.phase with
  | idle => exact ⟨_, step_idle hp⟩
  | scan => exact step_scan_completes hp
  | unescape => exact step_unescape_completes hp
  | check => exact step_check_completes hp
  | walk => exact step_walk_completes hp (hs.walking hp).1

end Sys2Proof.Machine
end

section
/-! ## The state at reset (R64, R350) -/

namespace Sys2Proof.Machine

/-- The block after reset is sound under any parameters R12 admits. -/
theorem sound_resetWith {p : Params} (hp : p.wf = true) : Sound (State.resetWith p) where
  params := hp
  table := rfl
  engine := ⟨by simp [State.resetWith], by simp [State.resetWith]⟩
  running h := absurd rfl h
  buffer := .inl rfl
  capacity _ _ := Nat.zero_le _
  between _ := rfl
  noFrame _ := rfl
  fresh _ := ⟨rfl, rfl, rfl⟩
  unescaping _ := rfl
  checking _ := rfl
  walking h := by cases h
  slots := memory_wf_empty _

/-- Settles O38: the open parameters are ones that R12 admits. -/
theorem resetStateIsSound : Obligations.ResetStateIsSound := sound_resetWith config_params_wf

/-- `Reset` is performed whatever `FAULT` holds (R350). -/
theorem step_reset {s : State} {rest : List HostOp} (h : s.phase = .idle) (hq : s.hostq = .reset :: rest) :
    step s = .next (answer .done (resetBlock { s with hostq := rest })) := by
  rw [step_hostOp h hq, hostOp_performed (.inr rfl)]
  rfl

/-- Settles O49: the next state is that of `step_reset`, in which every register has its reset value. -/
theorem resetRestoresEveryRegister : Obligations.ResetRestoresEveryRegister := by
  intro s rest h hq
  refine ⟨_, step_reset h hq, rfl, rfl, rfl, rfl, rfl, rfl, rfl, rfl, rfl, rfl, fun k => ?_⟩
  exact ⟨rfl, rfl, rfl, rfl, rfl, rfl, rfl, rfl, rfl, rfl⟩

end Sys2Proof.Machine
end

section
/-! ## Between operations: what the host can change -/

namespace Sys2Proof.Machine

/-- Between operations nothing happens, or the oldest queued operation runs (R10). -/
theorem hostStep_cases (s : State) :
    (s.hostq = [] ∧ hostStep s = s) ∨
    (∃ op rest, s.hostq = op :: rest ∧ hostStep s = hostOp op { s with hostq := rest }) := by
  unfold hostStep
  split
  · next h => exact .inl ⟨h, rfl⟩
  · next op rest h => exact .inr ⟨op, rest, h, rfl⟩

theorem performs_of_head {s : State} {op : HostOp} {rest : List HostOp} (hp : s.phase = .idle)
    (hq : s.hostq = op :: rest) : Performs s op :=
  ⟨hp, by rw [hq]; rfl⟩

theorem HostOp.alwaysAdmitted_iff (op : HostOp) : op.alwaysAdmitted = true ↔ op = .reset ∨ ∃ reg, op = .read reg := by
  cases op <;> simp [HostOp.alwaysAdmitted]

/-- While `FAULT` is set an operation other than `Reset` answers the host and does nothing else (R53, R58, R322). -/
theorem hostOp_faulted {op : HostOp} {s : State} (hf : s.faultReg ≠ .none) (hr : op ≠ .reset) :
    ∃ r, hostOp op s = answer r s := by
  by_cases ha : op.alwaysAdmitted = true
  · obtain rfl | ⟨reg, rfl⟩ := op.alwaysAdmitted_iff.1 ha
    · exact absurd rfl hr
    · exact ⟨_, hostOp_performed (.inr rfl)⟩
  · exact ⟨_, hostOp_refused hf (by simpa using ha)⟩

@[simp] theorem initEngine_dev (s : State) : (initEngine s).dev = s.dev := by
  rcases initEngine_cases s with ⟨-, e⟩ | ⟨-, e⟩ <;> rw [e]

theorem withEngine_dev {op : State → State} (h : ∀ u, (op u).dev = u.dev) (s : State) :
    (withEngine op s).dev = s.dev := by
  rcases withEngine_cases op s with ⟨-, -, e⟩ | ⟨-, e⟩
  · rw [e, h, initEngine_dev]
  · rw [e, answer_dev, initEngine_dev]

/-- The operation leaves the Device Model as it is, or is a request note that writes its time (R53, R280). -/
def WritesOnlyRequestTime (op : HostOp) (d d' : DeviceModel) : Prop :=
  d' = d ∨ ∃ time, op = .noteRtcRequest time ∧ d' = { d with rtcReqAt := some time }

theorem performOp_dev {op : HostOp} (hr : op ≠ .reset) (s : State) :
    WritesOnlyRequestTime op s.dev (performOp op s).dev := by
  cases op with
  | reset => exact absurd rfl hr
  | noteRtcRequest time => exact .inr ⟨time, rfl, rfl⟩
  | init | ingest | decodeFrame | crcCompute | buildFrame =>
    simp only [performOp]
    refine .inl (withEngine_dev (fun u => ?_) s)
    rfl
  | read | takeOutcome => exact .inl rfl

theorem hostOp_dev {op : HostOp} (hr : op ≠ .reset) (s : State) :
    WritesOnlyRequestTime op s.dev (hostOp op s).dev := by
  by_cases hf : s.faultReg = .none
  · rw [hostOp_performed (.inl hf)]
    exact performOp_dev hr s
  · obtain ⟨r, e⟩ := hostOp_faulted hf hr
    exact .inl (by rw [e, answer_dev])

/-- Between operations, `Reset` apart, only a request note writes the Device Model. -/
theorem hostStep_dev {s : State} (hp : s.phase = .idle) (hr : ¬ Performs s .reset) :
    (hostStep s).dev = s.dev ∨
      ∃ time, Performs s (.noteRtcRequest time) ∧ (hostStep s).dev = { s.dev with rtcReqAt := some time } := by
  rcases hostStep_cases s with ⟨-, e⟩ | ⟨op, rest, hq, e⟩
  · exact .inl (by rw [e])
  · have hop : op ≠ .reset := fun e => hr (performs_of_head hp (e ▸ hq))
    rw [e]
    rcases hostOp_dev hop { s with hostq := rest } with hd | ⟨time, rfl, hd⟩
    · exact .inl hd
    · exact .inr ⟨time, performs_of_head hp hq, hd⟩

/-- Settles O48: `hostStep_dev`, the step between operations being `hostStep`. -/
theorem hostWritesOnlyTheRequestTime : Obligations.HostWritesOnlyTheRequestTime := by
  intro s t hp h hr
  rw [step_idle hp] at h
  cases h
  exact hostStep_dev hp hr

/-- A sound block with `FAULT` set is between operations (R150, R322). -/
theorem Sound.idle_of_fault {s : State} (hs : Sound s) (hf : s.faultReg ≠ .none) : s.phase = .idle := by
  by_contra hp
  exact hf (hs.running hp).2

/-- Settles O44: the block is between operations, where whatever is queued but `Reset` only answers. -/
theorem faultIsStickyUntilReset : Obligations.FaultIsStickyUntilReset := by
  intro s t hs hf h hr
  have hp := hs.idle_of_fault hf
  rw [step_idle hp] at h
  cases h
  rcases hostStep_cases s with ⟨-, e⟩ | ⟨op, rest, hq, e⟩
  · rw [e]
  · have hop : op ≠ .reset := fun e => hr (performs_of_head hp (e ▸ hq))
    obtain ⟨r, ea⟩ := hostOp_faulted (s := { s with hostq := rest }) hf hop
    rw [e, ea, answer_faultReg]

end Sys2Proof.Machine
end

section
/-! ## The decoding of a candidate: what it can change (R37, R102) -/

namespace Sys2Proof.Machine

/-- What decoding may change: its working state, the Device Model, the two queues of results, and the phase. -/
def DecodingShape (s t : State) : Prop :=
  t = { s with work := t.work, dev := t.dev, evq := t.evq, logq := t.logq, phase := t.phase }

theorem FieldShape.decodingShape {s t : State} {w : Work} (h : FieldShape { s with work := w } t) :
    DecodingShape s t := by
  rcases h with ⟨e, rfl⟩ | h
  · rfl
  · rw [DecodingShape, h]

/-- The frame instruction of a code starts a walk or drops the frame (R124, R211). -/
theorem exec_frameInstrOfCode_cases (code : U16) (s : State) :
    (∃ r, exec (frameInstrOfCode code) s = .next (startWalk r s)) ∨
    exec (frameInstrOfCode code) s = .next (dropUnknownType code s) := by
  cases hc : RecordType.ofCode code with
  | some r => exact .inl ⟨r, exec_frameInstrOfCode_some hc s⟩
  | none => exact .inr (exec_frameInstrOfCode_none hc s)

theorem copyPlain_decodingShape (s : State) : DecodingShape s (copyPlain s) := by
  rcases copyPlain_cases s with ⟨-, e⟩ | ⟨_, -, e⟩ | ⟨_, _, -, -, e⟩ <;> rw [e] <;> rfl

/-- A record type drops the frame or starts its walk. -/
theorem exec_frameInstrOfCode_decodingShape {code : U16} {s t : State} {w : Work}
    (h : exec (frameInstrOfCode code) { s with work := w } = .next t) : DecodingShape s t := by
  rcases exec_frameInstrOfCode_cases code { s with work := w } with ⟨r, e⟩ | e
  · cases e.symm.trans h
    rfl
  · cases e.symm.trans h
    rfl

/-- A field the walk selects has the shape of a field, whose writes are within the decoder's. -/
theorem exec_fieldInstr_decodingShape {r : RecordType} {tag : Byte} {val : List Byte} {s t : State} {w : Work}
    (h : exec (fieldInstr r tag val) { s with work := w } = .next t) : DecodingShape s t := by
  obtain ⟨u, hu, hshape⟩ := exec_field_shape (i := fieldInstr r tag val) (by rw [fieldInstr_field]; rfl)
    { s with work := w }
  cases hu.symm.trans h
  exact hshape.decodingShape

theorem step_decodingShape {s t : State} (h : step s = .next t)
    (hp : s.phase = .unescape ∨ s.phase = .check ∨ s.phase = .walk) : DecodingShape s t := by
  rcases step_cases h with ⟨hi, -⟩ | ⟨hi, -⟩ | ⟨_, _, hi, -⟩ | ⟨_, _, -, -, rfl⟩ | ⟨-, -, rfl⟩ | ⟨_, -, -, rfl⟩ |
    ⟨-, -, he⟩ | ⟨-, -, rfl⟩ | ⟨_, _, _, -, -, -, -, rfl⟩ | ⟨_, _, _, _, -, -, -, -, -, he⟩
  · simp [hi] at hp
  · simp [hi] at hp
  · simp [hi] at hp
  · rfl
  · exact copyPlain_decodingShape s
  · rfl
  · exact exec_frameInstrOfCode_decodingShape he
  · rfl
  · rfl
  · exact exec_fieldInstr_decodingShape he

/-- Settles O46: the stream and the host's side are no part of `DecodingShape`. -/
theorem decodingLeavesTheStreamAlone : Obligations.DecodingLeavesTheStreamAlone := by
  intro s t h hp
  rw [step_decodingShape h hp]
  exact ⟨rfl, rfl, rfl, rfl⟩

end Sys2Proof.Machine
end

section
/-! ## Written registers stay written (R54) -/

namespace Sys2Proof.Machine

/-- A written slot reads a value, and a slot that held one still does. -/
theorem isSome_slotGet_slotSet {α : Type} {f : SlotFile α} (slot : Nat) (v : α) (k : Nat)
    (h : (slotGet f k).isSome) : (slotGet (slotSet f slot v) k).isSome := by
  by_cases hk : k = slot
  · rw [hk, slotGet_slotSet_same]
    rfl
  · rwa [slotGet_slotSet_other f v hk]

/-- Every register of `d` that holds a value holds one in `d'` too, `RTC_REQ_AT` left out (R54, R281). -/
structure StaysWritten (d d' : DeviceModel) : Prop where
  rfEnabled : ∀ k, (slotGet d.rfEnabled k).isSome → (slotGet d'.rfEnabled k).isSome
  rfChannel : ∀ k, (slotGet d.rfChannel k).isSome → (slotGet d'.rfChannel k).isSome
  rfBand : ∀ k, (slotGet d.rfBand k).isSome → (slotGet d'.rfBand k).isSome
  rfThreshold : ∀ k, (slotGet d.rfThreshold k).isSome → (slotGet d'.rfThreshold k).isSome
  rfGain : ∀ k, (slotGet d.rfGain k).isSome → (slotGet d'.rfGain k).isSome
  rfFreq : ∀ k, (slotGet d.rfFreq k).isSome → (slotGet d'.rfFreq k).isSome
  rssiMin : ∀ k, (slotGet d.rssiMin k).isSome → (slotGet d'.rssiMin k).isSome
  rssiMax : ∀ k, (slotGet d.rssiMax k).isSome → (slotGet d'.rssiMax k).isSome
  rssiMean : ∀ k, (slotGet d.rssiMean k).isSome → (slotGet d'.rssiMean k).isSome
  rssiLast : ∀ k, (slotGet d.rssiLast k).isSome → (slotGet d'.rssiLast k).isSome
  gateState : d.gateState.isSome → d'.gateState.isSome
  gateRaw : d.gateRaw.isSome → d'.gateRaw.isSome
  battMv : d.battMv.isSome → d'.battMv.isSome
  detectCount : d.detectCount.isSome → d'.detectCount.isSome
  minLapTime : d.minLapTime.isSome → d'.minLapTime.isSome
  statusFlags : d.statusFlags.isSome → d'.statusFlags.isSome
  rtcTime : d.rtcTime.isSome → d'.rtcTime.isSome
  rtcLocalSeconds : d.rtcLocalSeconds.isSome → d'.rtcLocalSeconds.isSome
  timeRtcTime : d.timeRtcTime.isSome → d'.timeRtcTime.isSome

namespace StaysWritten

theorem refl (d : DeviceModel) : StaysWritten d d := by
  constructor <;> intros <;> assumption

theorem of_withUInt {r : RecordType} {tag : Byte} {val : List Byte} {k : U64 → State → State} {s : State}
    (h : ∀ v, StaysWritten s.dev (k v s).dev) : StaysWritten s.dev (withUInt r tag val k s).dev :=
  withUInt_ind (Q := fun t => StaysWritten s.dev t.dev) (fun v _ => h v) (refl _)

theorem of_withF32 {r : RecordType} {tag : Byte} {val : List Byte} {k : U32 → State → State} {s : State}
    (h : ∀ v, StaysWritten s.dev (k v s).dev) : StaysWritten s.dev (withF32 r tag val k s).dev :=
  withF32_ind (Q := fun t => StaysWritten s.dev t.dev) (fun v _ => h v) (refl _)

theorem of_slotWrite {r : RecordType} {tag : Byte} {w : Nat → DeviceModel → DeviceModel} {s : State}
    (h : ∀ slot, StaysWritten s.dev (w slot s.dev)) : StaysWritten s.dev (slotWrite r tag w s).dev :=
  slotWrite_ind (Q := fun t => StaysWritten s.dev t.dev) (fun _ => refl _) fun slot _ => h slot

/-- The correlation writes `RTC_LOCAL_SECONDS` and clears only `RTC_REQ_AT` (R281). -/
theorem of_correlate (v : U64) (s : State) :
    StaysWritten s.dev (correlate v (devWrite (fun d => { d with rtcTime := some v }) s)).dev := by
  rcases correlate_cases v (devWrite (fun d => { d with rtcTime := some v }) s) with ⟨-, e⟩ | ⟨_, -, e⟩ <;> rw [e]
  · exact { refl s.dev with rtcTime := fun _ => rfl }
  · exact { refl s.dev with rtcTime := fun _ => rfl, rtcLocalSeconds := fun _ => rfl }

end StaysWritten

open StaysWritten in
/-- A field writes a value to a register, or leaves the registers as they are. -/
theorem exec_field_staysWritten {i : Instr} (hi : i.field.isSome = true) {s t : State} (h : exec i s = .next t) :
    StaysWritten s.dev t.dev := by
  cases i <;> cases h
  case byteStart | byteEnd | byteEsc | byteData | escPair | rssi | rfsetup | statectl | settings | desc | passing | status
      | time | error | frameUnknown => simp [Instr.field] at hi
  case rssiMin => exact of_withF32 fun v => of_slotWrite fun n => { refl _ with rssiMin := isSome_slotGet_slotSet n v }
  case rssiMax => exact of_withF32 fun v => of_slotWrite fun n => { refl _ with rssiMax := isSome_slotGet_slotSet n v }
  case rssiMean => exact of_withF32 fun v => of_slotWrite fun n => { refl _ with rssiMean := isSome_slotGet_slotSet n v }
  case statusLastrssi =>
    exact of_withF32 fun v => of_slotWrite fun n => { refl _ with rssiLast := isSome_slotGet_slotSet n v }
  case rfsetupThreshold =>
    exact of_withF32 fun v => of_slotWrite fun n => { refl _ with rfThreshold := isSome_slotGet_slotSet n v }
  case rfsetupEnabled =>
    exact of_withUInt fun v => of_slotWrite fun n => { refl _ with rfEnabled := isSome_slotGet_slotSet n v }
  case rfsetupChannel =>
    exact of_withUInt fun v => of_slotWrite fun n => { refl _ with rfChannel := isSome_slotGet_slotSet n v }
  case rfsetupBand => exact of_withUInt fun v => of_slotWrite fun n => { refl _ with rfBand := isSome_slotGet_slotSet n v }
  case rfsetupGain => exact of_withUInt fun v => of_slotWrite fun n => { refl _ with rfGain := isSome_slotGet_slotSet n v }
  case rfsetupFreq => exact of_withUInt fun v => of_slotWrite fun n => { refl _ with rfFreq := isSome_slotGet_slotSet n v }
  case statectlGate | statusGate =>
    exact of_withUInt fun v => { refl _ with gateState := fun _ => rfl, gateRaw := fun _ => rfl }
  case settingsMinlap => exact of_withUInt fun v => { refl _ with minLapTime := fun _ => rfl }
  case statusFlags => exact of_withUInt fun v => { refl _ with statusFlags := fun _ => rfl }
  case statusBatt => exact of_withUInt fun v => { refl _ with battMv := fun _ => rfl }
  case statusDetect => exact of_withUInt fun v => { refl _ with detectCount := fun _ => rfl }
  case timeTrt => exact of_withUInt fun v => { refl _ with timeRtcTime := fun _ => rfl }
  case timeRtc => exact of_withUInt fun v => of_correlate v s
  case passingRtc => exact of_withUInt fun v => { refl s.dev with }
  case rssiSlot | rfsetupSlot | statusSlot | passingSlot | passingDecoder | passingNumber | passingPeak | passingFlags =>
    exact of_withUInt fun v => refl s.dev
  case rssiX23 | rssiX26 | settingsStatusint | descAny | errorAny | rssiUnknown | rfsetupUnknown | statectlUnknown
      | settingsUnknown | passingUnknown | statusUnknown | timeUnknown => exact refl s.dev

theorem exec_streamInstr_dev {b : Byte} {s t : State} (h : exec (streamInstr b) s = .next t) : t.dev = s.dev := by
  rcases exec_streamInstr_cases b s with ⟨-, -, e⟩ | ⟨-, -, e⟩ | ⟨-, -, -, e⟩ | ⟨-, -, -, e⟩ <;>
    cases e.symm.trans h <;> rfl

theorem exec_frameInstrOfCode_dev {code : U16} {s t : State} (h : exec (frameInstrOfCode code) s = .next t) :
    t.dev = s.dev := by
  rcases exec_frameInstrOfCode_cases code s with ⟨r, e⟩ | e <;> cases e.symm.trans h <;> rfl

theorem copyPlain_dev (s : State) : (copyPlain s).dev = s.dev := by
  rcases copyPlain_cases s with ⟨-, e⟩ | ⟨_, -, e⟩ | ⟨_, _, -, -, e⟩ <;> rw [e]

/-- Inside an operation only a field of the walk writes the Device Model. -/
theorem step_dev_cases {s t : State} (h : step s = .next t) :
    (s.phase = .idle ∧ t = hostStep s) ∨ t.dev = s.dev ∨
    (∃ i w, i.field.isSome = true ∧ exec i { s with work := w } = .next t) := by
  rcases step_cases h with hi | ⟨-, -, rfl⟩ | ⟨_, _, -, -, he⟩ | ⟨_, _, -, -, rfl⟩ | ⟨-, -, rfl⟩ | ⟨_, -, -, rfl⟩ |
    ⟨-, -, he⟩ | ⟨-, -, rfl⟩ | ⟨_, _, _, -, -, -, -, rfl⟩ | ⟨r, tag, _, _, -, -, -, -, -, he⟩
  · exact .inl hi
  · exact .inr (.inl rfl)
  · have hd := exec_streamInstr_dev he
    exact .inr (.inl hd)
  · exact .inr (.inl rfl)
  · exact .inr (.inl (copyPlain_dev s))
  · exact .inr (.inl rfl)
  · have hd := exec_frameInstrOfCode_dev he
    exact .inr (.inl hd)
  · exact .inr (.inl rfl)
  · exact .inr (.inl rfl)
  · exact .inr (.inr ⟨_, _, by rw [fieldInstr_field]; rfl, he⟩)

/-- A step that is no `Reset` writes registers but clears none, `RTC_REQ_AT` left out. -/
theorem step_staysWritten {s t : State} (h : step s = .next t) (hr : ¬ Performs s .reset) :
    StaysWritten s.dev t.dev := by
  rcases step_dev_cases h with ⟨hp, rfl⟩ | hd | ⟨i, w, hi, he⟩
  · rcases hostStep_dev hp hr with hd | ⟨time, -, hd⟩ <;> rw [hd]
    · exact .refl _
    · exact { StaysWritten.refl s.dev with }
  · rw [hd]
    exact .refl _
  · have hw := exec_field_staysWritten hi he
    exact hw

/-- Settles O42: the registers of `step_staysWritten`, one by one. -/
theorem writtenRegistersStayWritten : Obligations.WrittenRegistersStayWritten := by
  intro s t h hr
  have hw := step_staysWritten h hr
  exact ⟨hw.rfEnabled, hw.rfChannel, hw.rfBand, hw.rfThreshold, hw.rfGain, hw.rfFreq, hw.rssiMin, hw.rssiMax,
    hw.rssiMean, hw.rssiLast, hw.gateState, hw.gateRaw, hw.battMv, hw.detectCount, hw.minLapTime, hw.statusFlags,
    hw.rtcTime, hw.rtcLocalSeconds, hw.timeRtcTime⟩

end Sys2Proof.Machine
end

section
/-! ## The round trip between instructions and bytes (R110 to R125) -/

namespace Sys2Proof.Laws

/-! ### From instructions to bytes and back -/

open RoundTrip in
/-- The round trip of each constructor, in the order of `Instr`. -/
theorem roundTrip (i : Instr) : Statement i :=
  i.casesOn
    byteStart byteEnd byteEsc byteData escPair
    rssi rfsetup statectl settings desc passing status time error frameUnknown
    rssiSlot rssiMin rssiMax rssiMean rssiX23 rssiX26
    rfsetupSlot rfsetupEnabled rfsetupChannel rfsetupBand rfsetupThreshold rfsetupGain rfsetupFreq
    statectlGate settingsStatusint settingsMinlap
    passingSlot passingRtc passingDecoder passingNumber passingPeak passingFlags
    statusSlot statusFlags statusBatt statusLastrssi statusGate statusDetect
    timeRtc timeTrt descAny errorAny
    rssiUnknown rfsetupUnknown statectlUnknown settingsUnknown passingUnknown statusUnknown timeUnknown

/-- Settles O1: `roundTrip`, constructor by constructor. -/
theorem decodeOfEncodeIsTheInstruction : Obligations.DecodeOfEncodeIsTheInstruction :=
  fun i rest hw => roundTrip i hw rest

/-! ### From bytes to instructions and back -/

/-- The bytes of a code read little-endian are the two bytes again (R86). -/
theorem codeBytes_u16le (lo hi : Byte) : codeBytes (u16le lo hi) = [lo, hi] := by
  rw [codeBytes, u16le, BitVec.extractLsb'_append_eq_right, BitVec.extractLsb'_append_eq_left]

/-- A length byte that the remaining bytes cover cuts a value whose encoding it begins (R115, R216). -/
theorem tlvBytes_take {len : Byte} {bytes : List Byte} (tag : Byte) (h : len.toNat ≤ bytes.length) :
    valueFits (bytes.take len.toNat) = true ∧
      tlvBytes tag (bytes.take len.toNat) ++ bytes.drop len.toNat = tag :: len :: bytes := by
  have hlen : (bytes.take len.toNat).length = len.toNat := List.length_take_of_le h
  have hlt := len.isLt
  constructor
  · simp only [valueFits, hlen, decide_eq_true_eq]
    omega
  · simp [tlvBytes, hlen]

/-- What the decoder accepts, level by level (R111, R112, R121, R122). -/
theorem decode_ok_cases {level : Level} {bytes rest : List Byte} {i : Instr}
    (h : decode level bytes = .ok (i, rest)) :
    (∃ b, level = .stream ∧ bytes = b :: rest ∧ i = streamInstr b) ∨
    (∃ x, level = .escape ∧ bytes = ESC :: x :: rest ∧ i = .escPair x) ∨
    (∃ lo hi, level = .frame ∧ bytes = lo :: hi :: rest ∧ i = frameInstrOfCode (u16le lo hi)) ∨
    (∃ r tag val, level = .field r.code ∧ valueFits val = true ∧ bytes = tlvBytes tag val ++ rest ∧
      i = fieldInstr r tag val) := by
  cases level <;> simp only [decode] at h
  case stream =>
    split at h <;> cases h
    exact .inl ⟨_, rfl, rfl, rfl⟩
  case escape =>
    split at h
    · split_ifs at h with hb
      cases h
      exact .inr (.inl ⟨_, rfl, by rw [hb], rfl⟩)
    · cases h
  case frame =>
    split at h <;> cases h
    exact .inr (.inr (.inl ⟨_, _, rfl, rfl, rfl⟩))
  case field rtype =>
    split at h
    · next tag len more =>
      split_ifs at h with hlen
      obtain ⟨hv, hb⟩ := tlvBytes_take tag (Nat.not_lt.1 hlen)
      split at h <;> cases h
      next r hr => exact .inr (.inr (.inr ⟨r, tag, _, by rw [Machine.ofCode_eq_some hr], hv, hb.symm, rfl⟩))
    · cases h

/-- A code that is none of the nine selects the default frame row (R123, R124). -/
theorem frameInstrOfCode_unrecognised {code : U16} (h : code ∉ recognisedCodes) :
    frameInstrOfCode code = .frameUnknown code := by
  simp only [frameInstrOfCode, ofCode_none h]

theorem frameInstrOfCode_code (r : RecordType) : frameInstrOfCode r.code = frameInstr r := by
  simp only [frameInstrOfCode, ofCode_code]

/-- A code is a record type's, or it is none of the nine. -/
theorem eq_code_or_unrecognised (code : U16) : (∃ r : RecordType, code = r.code) ∨ code ∉ recognisedCodes := by
  by_cases h : code ∈ recognisedCodes
  · obtain ⟨r, hr⟩ := Option.isSome_iff_exists.1 ((ofCode_isSome_iff code).2 h)
    exact .inl ⟨r, Machine.ofCode_eq_some hr⟩
  · exact .inr h

/-- The instruction is well-formed, of the level, and the bytes are its encoding. -/
structure IsEncoding (level : Level) (i : Instr) (bytes : List Byte) : Prop where
  wf : i.wf = true
  level : i.level = level
  bytes : encode i = bytes

theorem isEncoding_streamInstr (b : Byte) : IsEncoding .stream (streamInstr b) [b] := by
  unfold streamInstr
  split_ifs with hs he hc
  · exact ⟨rfl, rfl, by rw [hs]; rfl⟩
  · exact ⟨rfl, rfl, by rw [he]; rfl⟩
  · exact ⟨rfl, rfl, by rw [hc]; rfl⟩
  · exact ⟨by simp [Instr.wf, reservedBytes, hs, he, hc], rfl, rfl⟩

theorem isEncoding_frameInstr (r : RecordType) : IsEncoding .frame (frameInstr r) (codeBytes r.code) := by
  cases r <;> exact ⟨rfl, rfl, by decide⟩

theorem isEncoding_frameInstrOfCode (code : U16) : IsEncoding .frame (frameInstrOfCode code) (codeBytes code) := by
  rcases eq_code_or_unrecognised code with ⟨r, rfl⟩ | h
  · rw [frameInstrOfCode_code]
    exact isEncoding_frameInstr r
  · rw [frameInstrOfCode_unrecognised h]
    exact ⟨by simpa [Instr.wf] using h, rfl, rfl⟩

/-- A field's level and bytes are those of its record, tag and value (R115, R122). -/
theorem level_encode_of_field {i : Instr} {r : RecordType} {tag : Byte} {val : List Byte}
    (h : i.field = some (r, tag, val)) : i.level = .field r.code ∧ encode i = tlvBytes tag val := by
  cases i <;> cases h <;> exact ⟨rfl, rfl⟩

/-- The instruction a tag selects is well-formed: a default row only when the tag has no row of its own (R123). -/
theorem wf_fieldInstr (r : RecordType) (tag : Byte) {val : List Byte} (h : valueFits val = true) :
    (fieldInstr r tag val).wf = true := by
  cases r
  case desc | error => exact h
  all_goals
    simp only [fieldInstr]
    split_ifs <;> simp_all [Instr.wf, unlisted_iff, listedTags]

theorem isEncoding_fieldInstr (r : RecordType) (tag : Byte) {val : List Byte} (h : valueFits val = true) :
    IsEncoding (.field r.code) (fieldInstr r tag val) (tlvBytes tag val) := by
  obtain ⟨hl, hb⟩ := level_encode_of_field (Machine.fieldInstr_field r tag val)
  exact ⟨wf_fieldInstr r tag h, hl, hb⟩

/-- What the decoder accepts is the encoding of the instruction, followed by the rest. -/
theorem decode_ok_isEncoding {level : Level} {bytes rest : List Byte} {i : Instr}
    (h : decode level bytes = .ok (i, rest)) : ∃ front, IsEncoding level i front ∧ front ++ rest = bytes := by
  rcases decode_ok_cases h with ⟨b, rfl, rfl, rfl⟩ | ⟨x, rfl, rfl, rfl⟩ | ⟨lo, hi, rfl, rfl, rfl⟩ |
    ⟨r, tag, val, rfl, hv, rfl, rfl⟩
  · exact ⟨_, isEncoding_streamInstr b, rfl⟩
  · exact ⟨_, ⟨rfl, rfl, rfl⟩, rfl⟩
  · exact ⟨_, isEncoding_frameInstrOfCode _, by rw [codeBytes_u16le]; rfl⟩
  · exact ⟨_, isEncoding_fieldInstr r tag hv, rfl⟩

/-- Settles O2: `decode_ok_isEncoding`. -/
theorem encodeOfDecodeIsTheBytes : Obligations.EncodeOfDecodeIsTheBytes := by
  intro level bytes i rest h
  obtain ⟨front, ⟨hw, hl, rfl⟩, hb⟩ := decode_ok_isEncoding h
  exact ⟨hw, hl, hb⟩

/-- Settles O3: the decoder computes each word. -/
theorem wordsDecodeAsWrittenOut : Obligations.WordsDecodeAsWrittenOut :=
  ⟨rfl, rfl, rfl, rfl, rfl, rfl, rfl⟩

/-- Settles O14: the default row is selected, and its meaning is `dropUnknownType`. -/
theorem unknownFrameIsDropped : Obligations.UnknownFrameIsDropped :=
  ⟨fun _ h => frameInstrOfCode_unrecognised h, fun _ _ => rfl⟩

end Sys2Proof.Laws
end

section
/-! ## The decoder and the opcode table (R123) -/

namespace Sys2Proof.Laws

/-- The test of R123: the word under the row's mask is the row's pattern. -/
def rowMatches (word : Nat) (row : OpRow) : Bool := (word &&& row.mask) == row.pattern

/-- The rows `selectRow` chooses from. -/
def matchingRows (format : RowFormat) (word : Nat) : List OpRow :=
  (opcodeTable.filter (·.format == format)).filter (rowMatches word)

/-- The first matching row is selected when no later one has more mask bits. -/
theorem selectRow_of_matchingRows {format : RowFormat} {word : Nat} {row : OpRow} {others : List OpRow}
    (h : matchingRows format word = row :: others) (hmax : ∀ other ∈ others, maskBits other.mask ≤ maskBits row.mask) :
    selectRow format word = some row := by
  have hf : opcodeTable.filter (fun row => row.format == format && (word &&& row.mask) == row.pattern) =
      row :: others := by
    rw [← h, matchingRows, List.filter_filter]
    exact List.filter_congr fun row _ => Bool.and_comm ..
  rw [selectRow, hf, List.foldl_cons]
  refine List.foldlRecOn (motive := (· = some row)) others _ rfl fun best hbest other ho => ?_
  rw [hbest]
  exact if_neg (Nat.not_lt.2 (hmax other ho))

/-- A row of full mask matches its own pattern alone. -/
theorem filter_fullMask {rows : List OpRow} {width word : Nat} (hmask : ∀ row ∈ rows, row.mask = 2 ^ width - 1)
    (hword : word < 2 ^ width) : rows.filter (rowMatches word) = rows.filter (word == ·.pattern) := by
  refine List.filter_congr fun row hrow => ?_
  rw [rowMatches, hmask row hrow, Nat.and_two_pow_sub_one_eq_mod, Nat.mod_eq_of_lt hword]

theorem filter_pattern_eq_nil {rows : List OpRow} {word : Nat} (h : word ∉ rows.map OpRow.pattern) :
    rows.filter (word == ·.pattern) = [] := by
  rw [List.filter_eq_nil_iff]
  exact fun row hrow heq => h (List.mem_map.2 ⟨row, hrow, (beq_iff_eq.1 heq).symm⟩)

/-- Bytes and codes may be compared by their numbers, as the table does. -/
theorem toNat_mem_map_iff {w : Nat} {x : BitVec w} {l : List (BitVec w)} : x.toNat ∈ l.map BitVec.toNat ↔ x ∈ l :=
  List.mem_map_of_injective fun _ _ => BitVec.eq_of_toNat_eq

/-- A mask over the high part of a word leaves its low byte out. -/
theorem mul_add_and_mul (hi lo mask : Nat) (h : lo < 256) :
    (hi * 256 + lo) &&& (mask * 256) = (hi &&& mask) * 256 := by
  have hdiv : ((hi * 256 + lo) &&& (mask * 256)) / 2 ^ 8 = hi &&& mask := by
    rw [Nat.and_div_two_pow]
    congr 1 <;> omega
  have hmod : ((hi * 256 + lo) &&& (mask * 256)) % 2 ^ 8 = 0 := by
    rw [Nat.and_mod_two_pow, Nat.mul_mod_left, Nat.and_zero]
  omega

/-! ### Stream bytes and escape pairs -/

/-- A byte that is not reserved matches the default row of level 1 alone. -/
theorem matchingRows_data {b : Byte} (h : b ∉ reservedBytes) :
    matchingRows .byte b.toNat = [⟨"BYTE.DATA", .byte, 0x00, 0x00⟩] := by
  have hrows : opcodeTable.filter (·.format == .byte) =
      streamRows.take 3 ++ [⟨"BYTE.DATA", .byte, 0x00, 0x00⟩] := rfl
  have hpat : b.toNat ∉ (streamRows.take 3).map OpRow.pattern := fun hp => h (toNat_mem_map_iff.1 hp)
  rw [matchingRows, hrows, List.filter_append, filter_fullMask (width := 8) (by decide) b.isLt,
    filter_pattern_eq_nil hpat]
  simp [rowMatches]

theorem selectRow_streamInstr (b : Byte) :
    (selectRow .byte b.toNat).map OpRow.mnemonic = some (streamInstr b).mnemonic := by
  unfold streamInstr
  split_ifs with hs he hc
  · subst hs; rfl
  · subst he; rfl
  · subst hc; rfl
  · rw [selectRow_of_matchingRows (matchingRows_data (by simp [reservedBytes, hs, he, hc])) (by simp)]
    rfl

theorem selectRow_escPair (x : Byte) :
    (selectRow .escpair (0x5C * 256 + x.toNat)).map OpRow.mnemonic = some (Instr.escPair x).mnemonic := by
  have hrow : rowMatches (0x5C * 256 + x.toNat) ⟨"ESC.PAIR", .escpair, 0x5C00, 0xFF00⟩ = true :=
    beq_iff_eq.2 (mul_add_and_mul 0x5C x.toNat 0xFF x.isLt)
  have hm : matchingRows .escpair (0x5C * 256 + x.toNat) = [⟨"ESC.PAIR", .escpair, 0x5C00, 0xFF00⟩] :=
    List.filter_cons_of_pos hrow
  rw [selectRow_of_matchingRows hm (by simp)]
  rfl

/-! ### Frames -/

/-- A code that is none of the nine matches the default row of level 2 alone. -/
theorem matchingRows_unrecognised {code : U16} (h : code ∉ recognisedCodes) :
    matchingRows .frame code.toNat = [⟨"FRAME.UNKNOWN", .frame, 0x0000, 0x0000⟩] := by
  have hrows : opcodeTable.filter (·.format == .frame) =
      frameRows.take 9 ++ [⟨"FRAME.UNKNOWN", .frame, 0x0000, 0x0000⟩] := rfl
  have hpat : code.toNat ∉ (frameRows.take 9).map OpRow.pattern := fun hp => h (toNat_mem_map_iff.1 hp)
  rw [matchingRows, hrows, List.filter_append, filter_fullMask (width := 16) (by decide) code.isLt,
    filter_pattern_eq_nil hpat]
  simp [rowMatches]

theorem selectRow_frameInstrOfCode (code : U16) :
    (selectRow .frame code.toNat).map OpRow.mnemonic = some (frameInstrOfCode code).mnemonic := by
  rcases eq_code_or_unrecognised code with ⟨r, rfl⟩ | h
  · rw [frameInstrOfCode_code]
    cases r <;> rfl
  · rw [selectRow_of_matchingRows (matchingRows_unrecognised h) (by simp), frameInstrOfCode_unrecognised h]
    rfl

/-! ### Fields -/

/-- The row of a listed tag, under the name of the field it selects. -/
def listedRow (r : RecordType) (tag : Byte) (val : List Byte) : OpRow :=
  ⟨(fieldInstr r tag val).mnemonic, .tlv, r.code.toNat * 256 + tag.toNat, 0xFFFFFF⟩

/-- The default row of a record, under the name of the field that tag 0, listed nowhere, selects. -/
def defaultRow (r : RecordType) : OpRow := ⟨(fieldInstr r 0x00#8 []).mnemonic, .tlv, r.code.toNat * 256, 0xFFFF00⟩

theorem mnemonic_unlisted {r : RecordType} {tag : Byte} (val : List Byte) (h : tag ∉ listedTags r) :
    (fieldInstr r tag val).mnemonic = (defaultRow r).mnemonic := by
  cases r <;> simp_all [listedTags, defaultRow, fieldInstr, Instr.mnemonic]

/-- The patterns of the full-mask field rows hold the listed tags only (R122). -/
theorem mem_listedTags_of_mem_patterns {r : RecordType} {tag : Byte}
    (h : r.code.toNat * 256 + tag.toNat ∈ fieldRows.map OpRow.pattern) : tag ∈ listedTags r := by
  have ht := tag.isLt
  cases r <;> simp [fieldRows, RecordType.code, listedTags, ← BitVec.toNat_inj] at h ⊢ <;> omega

/-- A listed tag matches its own full-mask row alone; a record lists at most seven tags. -/
theorem fieldRows_filter_listed {r : RecordType} {tag : Byte} (val : List Byte) (h : tag ∈ listedTags r) :
    fieldRows.filter (r.code.toNat * 256 + tag.toNat == ·.pattern) = [listedRow r tag val] := by
  cases r
  case desc | error => cases h
  all_goals
    simp only [listedTags, List.mem_cons, List.not_mem_nil, or_false] at h
    rcases h with rfl | rfl | rfl | rfl | rfl | rfl | rfl <;>
      simp [fieldRows, listedRow, RecordType.code, fieldInstr, Instr.mnemonic]

/-- Whatever the tag, of the default field rows the record's own matches. -/
theorem defaultFieldRows_filter (r : RecordType) (tag : Byte) :
    defaultFieldRows.filter (rowMatches (r.code.toNat * 256 + tag.toNat)) = [defaultRow r] := by
  have hmask : ∀ row ∈ defaultFieldRows, row.mask = (2 ^ 16 - 1) * 256 := by decide
  have hrecord : defaultFieldRows.filter (rowMatches (r.code.toNat * 256 + tag.toNat)) =
      defaultFieldRows.filter (r.code.toNat * 256 == ·.pattern) := by
    refine List.filter_congr fun row hrow => ?_
    rw [rowMatches, hmask row hrow, mul_add_and_mul _ _ _ tag.isLt, Nat.and_two_pow_sub_one_eq_mod,
      Nat.mod_eq_of_lt r.code.isLt]
  rw [hrecord]
  cases r <;> simp [defaultFieldRows, defaultRow, RecordType.code, fieldInstr, Instr.mnemonic]

theorem matchingRows_field (r : RecordType) (tag : Byte) :
    matchingRows .tlv (r.code.toNat * 256 + tag.toNat) =
      fieldRows.filter (r.code.toNat * 256 + tag.toNat == ·.pattern) ++ [defaultRow r] := by
  have hrows : opcodeTable.filter (·.format == .tlv) = fieldRows ++ defaultFieldRows := rfl
  have hword : r.code.toNat * 256 + tag.toNat < 2 ^ 24 := by
    have := r.code.isLt
    have := tag.isLt
    omega
  rw [matchingRows, hrows, List.filter_append, filter_fullMask (by decide) hword, defaultFieldRows_filter]

/-- A listed tag matches its own row and the default row, which has fewer mask bits; any other tag matches the default
row alone (R123). -/
theorem selectRow_fieldInstr (r : RecordType) (tag : Byte) (val : List Byte) :
    (selectRow .tlv (r.code.toNat * 256 + tag.toNat)).map OpRow.mnemonic = some (fieldInstr r tag val).mnemonic := by
  have hm := matchingRows_field r tag
  by_cases h : tag ∈ listedTags r
  · have hbits : maskBits 0xFFFF00 ≤ maskBits 0xFFFFFF := by decide
    rw [fieldRows_filter_listed val h] at hm
    rw [selectRow_of_matchingRows hm (by simpa [listedRow, defaultRow] using hbits)]
    rfl
  · rw [filter_pattern_eq_nil (mt mem_listedTags_of_mem_patterns h)] at hm
    rw [selectRow_of_matchingRows hm (by simp), mnemonic_unlisted val h]
    rfl

/-- Settles O4: the selected row, level by level. -/
theorem decoderFollowsTheOpcodeTable : Obligations.DecoderFollowsTheOpcodeTable :=
  ⟨rfl, selectRow_streamInstr, selectRow_escPair, selectRow_frameInstrOfCode, selectRow_fieldInstr⟩

end Sys2Proof.Laws
end

section
/-! ## Fields and the registers of other records (R122, R43 to R52) -/

namespace Sys2Proof.Machine

/-- From `s` to `t` the registers of records other than `r` are unchanged, group by group; a record that has no slot
field leaves `CURSLOT` alone too. -/
structure KeepsOthers (r : RecordType) (s t : State) : Prop where
  rf : r ≠ .rfsetup → t.dev.rfEnabled = s.dev.rfEnabled ∧ t.dev.rfChannel = s.dev.rfChannel ∧
    t.dev.rfBand = s.dev.rfBand ∧ t.dev.rfThreshold = s.dev.rfThreshold ∧ t.dev.rfGain = s.dev.rfGain ∧
    t.dev.rfFreq = s.dev.rfFreq
  rssi : r ≠ .rssi → t.dev.rssiMin = s.dev.rssiMin ∧ t.dev.rssiMax = s.dev.rssiMax ∧ t.dev.rssiMean = s.dev.rssiMean
  status : r ≠ .status → t.dev.rssiLast = s.dev.rssiLast ∧ t.dev.battMv = s.dev.battMv ∧
    t.dev.detectCount = s.dev.detectCount ∧ t.dev.statusFlags = s.dev.statusFlags
  gate : r ≠ .status → r ≠ .statectl → t.dev.gateState = s.dev.gateState ∧ t.dev.gateRaw = s.dev.gateRaw
  settings : r ≠ .settings → t.dev.minLapTime = s.dev.minLapTime
  passing : r ≠ .passing → t.dev.passing = s.dev.passing ∧ t.work.pb = s.work.pb ∧ t.work.lastrec = s.work.lastrec
  time : r ≠ .time → t.dev.rtcTime = s.dev.rtcTime ∧ t.dev.rtcLocalSeconds = s.dev.rtcLocalSeconds ∧
    t.dev.rtcReqAt = s.dev.rtcReqAt ∧ t.dev.timeRtcTime = s.dev.timeRtcTime
  curslot : r = .statectl ∨ r = .settings ∨ r = .desc ∨ r = .time ∨ r = .error → t.work.curslot = s.work.curslot

namespace KeepsOthers

theorem refl (r : RecordType) (s : State) : KeepsOthers r s s := by
  constructor <;> simp

theorem of_skip (c : Cause) (r r' : RecordType) (tag : Byte) (s : State) : KeepsOthers r s (skip c r' tag s) :=
  { refl r s with }

theorem of_withUInt {r r' : RecordType} {tag : Byte} {val : List Byte} {k : U64 → State → State} {s : State}
    (h : ∀ v, KeepsOthers r s (k v s)) : KeepsOthers r s (withUInt r' tag val k s) :=
  withUInt_ind (fun v _ => h v) (of_skip ..)

theorem of_withF32 {r r' : RecordType} {tag : Byte} {val : List Byte} {k : U32 → State → State} {s : State}
    (h : ∀ v, KeepsOthers r s (k v s)) : KeepsOthers r s (withF32 r' tag val k s) :=
  withF32_ind (fun v _ => h v) (of_skip ..)

theorem of_slotWrite {r r' : RecordType} {tag : Byte} {w : Nat → DeviceModel → DeviceModel} {s : State}
    (h : ∀ slot, KeepsOthers r s { s with dev := w slot s.dev }) : KeepsOthers r s (slotWrite r' tag w s) :=
  slotWrite_ind (fun _ => of_skip ..) fun slot _ => h slot

/-- The correlation writes registers of the Time record (R281). -/
theorem of_correlate (v : U64) (s : State) :
    KeepsOthers .time s (correlate v (devWrite (fun d => { d with rtcTime := some v }) s)) := by
  rcases correlate_cases v (devWrite (fun d => { d with rtcTime := some v }) s) with ⟨-, e⟩ | ⟨_, -, e⟩ <;> rw [e] <;>
    exact { refl .time s with time := absurd rfl }

/-- Which record a field belongs to decides which group it may write. -/
theorem of_exec_field {i : Instr} {r : RecordType} {tag : Byte} {val : List Byte} (hi : i.field = some (r, tag, val))
    {s t : State} (h : exec i s = .next t) : KeepsOthers r s t := by
  cases i <;> cases hi <;> cases h
  case rssiMin | rssiMax | rssiMean =>
    exact of_withF32 fun v => of_slotWrite fun n => { refl .rssi s with rssi := absurd rfl }
  case rfsetupThreshold => exact of_withF32 fun v => of_slotWrite fun n => { refl .rfsetup s with rf := absurd rfl }
  case rfsetupEnabled | rfsetupChannel | rfsetupBand | rfsetupGain | rfsetupFreq =>
    exact of_withUInt fun v => of_slotWrite fun n => { refl .rfsetup s with rf := absurd rfl }
  case statectlGate => exact of_withUInt fun v => { refl .statectl s with gate := fun _ => absurd rfl }
  case settingsMinlap => exact of_withUInt fun v => { refl .settings s with settings := absurd rfl }
  case passingRtc | passingDecoder | passingNumber | passingPeak | passingFlags =>
    exact of_withUInt fun v => { refl .passing s with passing := absurd rfl }
  case passingSlot =>
    exact of_withUInt fun v => { refl .passing s with passing := absurd rfl, curslot := by simp }
  case statusFlags | statusBatt | statusDetect =>
    exact of_withUInt fun v => { refl .status s with status := absurd rfl }
  case statusLastrssi => exact of_withF32 fun v => of_slotWrite fun n => { refl .status s with status := absurd rfl }
  case statusGate => exact of_withUInt fun v => { refl .status s with gate := absurd rfl }
  case timeRtc => exact of_withUInt fun v => of_correlate v s
  case timeTrt => exact of_withUInt fun v => { refl .time s with time := absurd rfl }
  case rssiSlot => exact of_withUInt fun v => { refl .rssi s with curslot := by simp }
  case rfsetupSlot => exact of_withUInt fun v => { refl .rfsetup s with curslot := by simp }
  case statusSlot => exact of_withUInt fun v => { refl .status s with curslot := by simp }
  case descAny | errorAny => exact refl _ s
  case rssiX23 | rssiX26 | settingsStatusint | rssiUnknown | rfsetupUnknown | statectlUnknown | settingsUnknown
      | passingUnknown | statusUnknown | timeUnknown => exact of_skip ..

end KeepsOthers

/-- Settles O27: the groups of `KeepsOthers`, one by one. -/
theorem fieldsWriteOnlyTheirRecordsRegisters : Obligations.FieldsWriteOnlyTheirRecordsRegisters := by
  intro i s t r tag val hi h
  have hk := KeepsOthers.of_exec_field hi h
  exact ⟨hk.rf, hk.rssi, hk.status, hk.gate, hk.settings, hk.passing, hk.time, hk.curslot⟩

end Sys2Proof.Machine
end

section
/-! ## The CRC unit (R151 to R156, R161)

All laws are proved of the bit-serial form, whose round is linear and one-to-one over GF(2); the table form is its
mirror image, so the two digests agree and the laws carry over. -/

namespace Sys2Proof.Machine

/-- The self-test the engine runs is the digest of the vector. -/
theorem crc16_selfTestVector : crc16 crcTable selfTestVector = 0x1B53#16 :=
  beq_iff_eq.mp selfTestPasses_crcTable

/-- Settles O53: the comparison `Init` makes, read as an equation. -/
theorem selfTestDigest : Obligations.SelfTestDigest := ⟨rfl, crc16_selfTestVector⟩

/-! ### Rounds of the bit-serial form -/

/-- A round shifts down by one and adds the polynomial where the bit shifted out was set. -/
theorem getLsbD_crcSerialRound (r : U16) (i : Nat) :
    (crcSerialRound r).getLsbD i = (r.getLsbD (i + 1) ^^ (r.getLsbD 0 && (0xA001#16).getLsbD i)) := by
  unfold crcSerialRound
  split <;> next h => simp only [h, BitVec.getLsbD_xor, BitVec.getLsbD_ushiftRight, Nat.add_comm 1 i, Bool.true_and,
    Bool.false_and, Bool.xor_false]

theorem crcSerialRound_of_even {r : U16} (h : r.getLsbD 0 = false) : crcSerialRound r = r >>> 1 := by
  rw [crcSerialRound, h]; rfl

/-- The round is linear over GF(2). -/
theorem crcSerialRound_xor (a b : U16) : crcSerialRound (a ^^^ b) = crcSerialRound a ^^^ crcSerialRound b := by
  refine BitVec.eq_of_getLsbD_eq fun i _ => ?_
  simp only [getLsbD_crcSerialRound, BitVec.getLsbD_xor, Bool.and_xor_distrib_right, Bool.xor_assoc,
    Bool.xor_left_comm]

/-- Nothing but zero goes to zero: the polynomial has its top bit set, where the shift leaves a zero, so the bit shifted
out stays visible there. -/
theorem eq_zero_of_crcSerialRound_eq_zero {r : U16} (h : crcSerialRound r = 0#16) : r = 0#16 := by
  have hbit (i : Nat) : (r.getLsbD (i + 1) ^^ (r.getLsbD 0 && (0xA001#16).getLsbD i)) = false := by
    rw [← getLsbD_crcSerialRound, h]; exact BitVec.getLsbD_zero
  have hlow : r.getLsbD 0 = false := by simpa using hbit 15
  refine BitVec.eq_of_getLsbD_eq fun i _ => ?_
  cases i with
  | zero => exact hlow
  | succ i => simpa only [hlow, Bool.false_and, Bool.xor_false, BitVec.getLsbD_zero] using hbit i

theorem crcSerialRound_injective : Function.Injective crcSerialRound := fun a b h =>
  BitVec.xor_eq_zero_iff.mp (eq_zero_of_crcSerialRound_eq_zero (by rw [crcSerialRound_xor, h, BitVec.xor_self]))

theorem crcSerialRound_iterate_xor (n : Nat) (a b : U16) :
    crcSerialRound^[n] (a ^^^ b) = crcSerialRound^[n] a ^^^ crcSerialRound^[n] b := by
  induction n generalizing a b with
  | zero => rfl
  | succ n ih => simp only [Function.iterate_succ_apply, crcSerialRound_xor, ih]

/-- As many rounds as there are low zero bits only shift them out. -/
theorem crcSerialRound_iterate_of_low_zero (n : Nat) {r : U16} (h : ∀ i < n, r.getLsbD i = false) :
    crcSerialRound^[n] r = r >>> n := by
  induction n generalizing r with
  | zero => simp
  | succ n ih =>
    have hnext : ∀ i < n, (r >>> 1).getLsbD i = false := fun i hi => by
      rw [BitVec.getLsbD_ushiftRight]; exact h _ (by omega)
    rw [Function.iterate_succ_apply, crcSerialRound_of_even (h 0 (by omega)), ih hnext, ← BitVec.shiftRight_add,
      Nat.add_comm]

/-! ### Bytes of the bit-serial form -/

theorem crcSerialStep_eq_iterate (r : U16) (b : Byte) :
    crcSerialStep r b = crcSerialRound^[8] (r ^^^ b.setWidth 16) :=
  List.foldl_const crcSerialRound _ (List.range 8)

theorem u16_eq_high_xor_low (r : U16) : r = (r >>> 8) <<< 8 ^^^ (r.setWidth 8).setWidth 16 := by
  refine BitVec.eq_of_getLsbD_eq fun i hi => ?_
  by_cases h8 : i < 8
  · simp [h8, hi]
  · simp [h8, hi, Nat.add_sub_cancel' (Nat.le_of_not_lt h8)]

theorem u16_and_0x00FF (r : U16) : r &&& 0x00FF#16 = (r.setWidth 8).setWidth 16 :=
  BitVec.eq_of_toNat_eq (by
    rw [BitVec.toNat_and, BitVec.toNat_setWidth_of_le (by decide), BitVec.toNat_setWidth]
    exact Nat.and_two_pow_sub_one_eq_mod _ 8)

/-- What a table of bytes rests on: eight rounds shift the high byte down and act on the low byte alone. -/
theorem crcSerialRound_iterate_eight (r : U16) :
    crcSerialRound^[8] r = r >>> 8 ^^^ crcSerialRound^[8] ((r.setWidth 8).setWidth 16) := by
  have hhigh : crcSerialRound^[8] ((r >>> 8) <<< 8) = (r >>> 8) <<< 8 >>> 8 :=
    crcSerialRound_iterate_of_low_zero 8 (by simp +contextual)
  have hback : (r >>> 8) <<< 8 >>> 8 = r >>> 8 := by bv_omega
  rw [← hback, ← hhigh, ← crcSerialRound_iterate_xor, ← u16_eq_high_xor_low]

/-- A byte step by the low byte of the remainder alone: the shape of a table step (R152). -/
theorem crcSerialStep_eq_low_byte (r : U16) (b : Byte) :
    crcSerialStep r b = r >>> 8 ^^^ crcSerialRound^[8] ((r.setWidth 8 ^^^ b).setWidth 16) := by
  rw [crcSerialStep_eq_iterate, crcSerialRound_iterate_xor, crcSerialRound_iterate_eight r, BitVec.xor_assoc,
    ← crcSerialRound_iterate_xor, BitVec.setWidth_xor]

/-- The digest is linear in the remainder and the byte together. -/
theorem crcSerialStep_xor (r s : U16) (a b : Byte) :
    crcSerialStep (r ^^^ s) (a ^^^ b) = crcSerialStep r a ^^^ crcSerialStep s b := by
  have hregroup : r ^^^ s ^^^ (a ^^^ b).setWidth 16 = r ^^^ a.setWidth 16 ^^^ (s ^^^ b.setWidth 16) := by
    rw [BitVec.setWidth_xor]; ac_rfl
  simp only [crcSerialStep_eq_iterate, hregroup, crcSerialRound_iterate_xor]

/-- A byte equal to the low byte of the remainder cancels it. -/
theorem crcSerialStep_low_byte (r : U16) : crcSerialStep r (r.setWidth 8) = r >>> 8 := by
  rw [crcSerialStep_eq_iterate, crcSerialRound_iterate_xor, crcSerialRound_iterate_eight r, BitVec.xor_assoc,
    BitVec.xor_self, BitVec.xor_zero]

theorem crcSerialStep_left_injective (b : Byte) : Function.Injective (crcSerialStep · b) := fun r s h => by
  simp only [crcSerialStep_eq_iterate] at h
  exact (BitVec.xor_left_inj _).mp (crcSerialRound_injective.iterate 8 h)

theorem crcSerialStep_right_injective (r : U16) : Function.Injective (crcSerialStep r) := fun a b h => by
  simp only [crcSerialStep_eq_iterate] at h
  have hext := (BitVec.xor_right_inj _).mp (crcSerialRound_injective.iterate 8 h)
  simpa using congrArg (BitVec.setWidth 8) hext

/-! ### Byte sequences of the bit-serial form -/

theorem foldl_crcSerialStep_injective (bytes : List Byte) :
    Function.Injective fun r => bytes.foldl crcSerialStep r := by
  induction bytes with
  | nil => exact fun _ _ h => h
  | cons b bytes ih => exact ih.comp (crcSerialStep_left_injective b)

theorem foldl_crcSerialStep_zipWith_xor {a b : List Byte} (hlen : a.length = b.length) (r s : U16) :
    (List.zipWith (· ^^^ ·) a b).foldl crcSerialStep (r ^^^ s) =
      a.foldl crcSerialStep r ^^^ b.foldl crcSerialStep s := by
  induction a generalizing b r s with
  | nil => cases b with
    | nil => rfl
    | cons y b => nomatch hlen
  | cons x a ih => cases b with
    | nil => nomatch hlen
    | cons y b =>
      simp only [List.zipWith_cons_cons, List.foldl_cons, crcSerialStep_xor]
      exact ih (Nat.succ.inj hlen) ..

/-- One byte changed in place changes the digest. -/
theorem crcSerial_set_injective {m : List Byte} {k : Nat} (hk : k < m.length) :
    Function.Injective fun b => crcSerial (m.set k b) := by
  intro x y h
  simp only [crcSerial, List.set_eq_take_append_cons_drop, hk, if_true, List.foldl_append, List.foldl_cons] at h
  exact crcSerialStep_right_injective _ (foldl_crcSerialStep_injective _ h)

theorem leBytes_toNat_two (r : U16) : leBytes r.toNat 2 = [r.setWidth 8, (r >>> 8).setWidth 8] := by
  have hsecond : BitVec.ofNat 8 (r.toNat / 256) = (r >>> 8).setWidth 8 :=
    BitVec.eq_of_toNat_eq (by simp [Nat.shiftRight_eq_div_pow])
  rw [leBytes, leBytes, leBytes, hsecond, BitVec.ofNat_toNat]

/-- Each byte of the digest cancels the low byte of the remainder and shifts the other one down; then none is left. -/
theorem crcSerial_append_digest (m : List Byte) : crcSerial (m ++ leBytes (crcSerial m).toNat 2) = 0 := by
  rw [leBytes_toNat_two, crcSerial, List.foldl_append, ← crcSerial, List.foldl_cons, crcSerialStep_low_byte,
    List.foldl_cons, crcSerialStep_low_byte, List.foldl_nil, ← BitVec.shiftRight_add]
  exact BitVec.ushiftRight_eq_zero (Nat.le_refl 16)

/-! ### The table form is the mirror image of the bit-serial form -/

theorem reverse_xor {w : Nat} (a b : BitVec w) : (a ^^^ b).reverse = a.reverse ^^^ b.reverse := by
  refine BitVec.eq_of_getLsbD_eq fun i _ => ?_
  simp only [BitVec.getLsbD_reverse, BitVec.getMsbD_xor, BitVec.getLsbD_xor]

theorem rev8_xor (a b : Byte) : rev8 (a ^^^ b) = rev8 a ^^^ rev8 b := reverse_xor a b

theorem rev16_xor (a b : U16) : rev16 (a ^^^ b) = rev16 a ^^^ rev16 b := reverse_xor a b

theorem rev8_rev8 (b : Byte) : rev8 (rev8 b) = b := BitVec.reverse_reverse_eq

theorem rev16_shiftLeft (r : U16) (n : Nat) : rev16 (r <<< n) = rev16 r >>> n := by
  refine BitVec.eq_of_getLsbD_eq fun i hi => ?_
  simp only [rev16, BitVec.getLsbD_reverse, BitVec.getMsbD_shiftLeft, BitVec.getLsbD_ushiftRight, Nat.add_comm]

theorem rev16_high_byte (b : Byte) : rev16 (b.setWidth 16 <<< 8) = (rev8 b).setWidth 16 := by
  refine BitVec.eq_of_getLsbD_eq fun i hi => ?_
  simp only [rev16, rev8, BitVec.getLsbD_reverse, BitVec.getMsbD_eq_getLsbD, BitVec.getLsbD_shiftLeft,
    BitVec.getLsbD_setWidth]
  grind

theorem rev8_high_byte (r : U16) : rev8 ((r >>> 8).setWidth 8) = (rev16 r).setWidth 8 := by
  refine BitVec.eq_of_getLsbD_eq fun i hi => ?_
  simp only [rev16, rev8, BitVec.getLsbD_reverse, BitVec.getMsbD_eq_getLsbD, BitVec.getLsbD_ushiftRight,
    BitVec.getLsbD_setWidth]
  grind

/-- A round of the table construction is a round of the bit-serial form, mirrored; `0xA001` is `0x8005` mirrored. -/
theorem rev16_crcRound (r : U16) : rev16 (crcRound r) = crcSerialRound (rev16 r) := by
  have hpoly : rev16 CRC_POLY = 0xA001#16 := by decide
  have hbit : (rev16 r).getLsbD 0 = r.msb := BitVec.getLsbD_reverse
  unfold crcRound crcSerialRound
  rw [hbit]
  split
  · rw [rev16_xor, rev16_shiftLeft, hpoly]
  · rw [rev16_shiftLeft]

/-- The entry of a byte: eight rounds on the byte placed in the high half (R151). -/
theorem crcTable_getD (b : Byte) : crcTable.getD b.toNat 0 = crcRound^[8] (b.setWidth 16 <<< 8) := by
  have hentry : crcTableEntry b.toNat = crcRound^[8] (BitVec.ofNat 16 b.toNat <<< 8) :=
    List.foldl_const crcRound _ (List.range 8)
  rw [BitVec.ofNat_toNat] at hentry
  have hb : b.toNat < crcTable.length := by rw [crcTable, List.length_map, List.length_range]; exact b.isLt
  rw [List.getD_eq_getElem _ _ hb, ← hentry]
  simp [crcTable]

theorem rev16_crcTable_getD (b : Byte) :
    rev16 (crcTable.getD b.toNat 0) = crcSerialRound^[8] ((rev8 b).setWidth 16) := by
  rw [crcTable_getD, (Function.Semiconj.iterate_right rev16_crcRound 8).eq, rev16_high_byte]

/-- The index into the table, mirrored, is the low byte the bit-serial form works on. -/
theorem rev16_crcStep (r : U16) (b : Byte) : rev16 (crcStep crcTable r b) = crcSerialStep (rev16 r) b := by
  have hindex : ((r >>> 8) ^^^ (rev8 b).setWidth 16) &&& 0x00FF#16 =
      (((r >>> 8).setWidth 8) ^^^ rev8 b).setWidth 16 := by
    rw [u16_and_0x00FF, BitVec.setWidth_xor, BitVec.setWidth_setWidth_of_le _ (by decide), BitVec.setWidth_eq]
  have hlow : rev8 ((r >>> 8).setWidth 8 ^^^ rev8 b) = (rev16 r).setWidth 8 ^^^ b := by
    rw [rev8_xor, rev8_high_byte, rev8_rev8]
  rw [crcStep, hindex, BitVec.toNat_setWidth_of_le (by decide), rev16_xor, rev16_shiftLeft,
    rev16_crcTable_getD, hlow, crcSerialStep_eq_low_byte]

/-- The digests agree: the mirrored remainder of the table form is the remainder of the bit-serial form. -/
theorem crc16_eq_crcSerial (bytes : List Byte) : crc16 crcTable bytes = crcSerial bytes :=
  (List.foldl_hom rev16 fun r b => (rev16_crcStep r b).symm).symm

/-- Settles O54: the step of the table form is mirrored byte by byte. -/
theorem tableCrcEqualsBitSerialCrc : Obligations.TableCrcEqualsBitSerialCrc := crc16_eq_crcSerial

/-! ### The laws of R161 -/

/-- Settles O55, by the linearity of the fold from the remainder zero on both sides. -/
theorem crcIsLinear : Obligations.CrcIsLinear := by
  intro a b hlen
  simp only [crc16_eq_crcSerial]
  exact foldl_crcSerialStep_zipWith_xor hlen 0 0

/-- Settles O56: the digest cancels the remainder of the bit-serial form. -/
theorem digestAppendedGivesZero : Obligations.DigestAppendedGivesZero := by
  intro m
  rw [crc16_eq_crcSerial, crc16_eq_crcSerial]
  exact crcSerial_append_digest m

/-- Settles O57: a flipped bit is a changed byte, and any changed byte changes the digest. -/
theorem singleBitErrorsAreDetected : Obligations.SingleBitErrorsAreDetected := by
  intro m k j hk hj h
  have hself : m.set k (m.getD k 0) = m := by rw [List.getD_eq_getElem _ _ hk, List.set_getElem_self]
  have hbyte : m.getD k 0 ^^^ (1#8 <<< j) = m.getD k 0 := by
    refine crcSerial_set_injective hk ?_
    simpa only [hself, crc16_eq_crcSerial] using h
  have hflip : 1#8 <<< j = 0#8 := by simpa using hbyte
  have hbit : (1#8 <<< j).getLsbD j = true := by simp [hj]
  simp [hflip] at hbit

end Sys2Proof.Machine
end

section
/-! ## The escape layer (R170 to R178)

`Escape` copies the first and the last byte and writes each byte between by `escByte`, so its laws are inductions over
that middle part, by whether a byte of it is reserved. -/

namespace Sys2Proof.Machine

/-! ### The escape pair -/

/-- Subtraction of bytes is subtraction modulo 256, in the form of R172. -/
theorem unescapeByte_eq_ofNat (x : Byte) : unescapeByte x = BitVec.ofNat 8 ((x.toNat + 256 - 0x40) % 256) := by
  refine BitVec.eq_of_toNat_eq ?_
  rw [unescapeByte, BitVec.toNat_sub, BitVec.toNat_ofNat, BitVec.toNat_ofNat]
  omega

/-- Escaping a byte adds what unescaping subtracts (R172, R174). -/
@[simp] theorem unescapeByte_add_offset (b : Byte) : unescapeByte (b + ESC_OFFSET) = b := BitVec.add_sub_cancel b _

/-- Settles O12: the decoder tests only the first byte of a pair, and the pair appends the byte it stands for. -/
theorem escapePairYieldsByteLessOffset : Obligations.EscapePairYieldsByteLessOffset := by
  refine ⟨fun x rest => rfl, fun x s => ?_⟩
  rw [← unescapeByte_eq_ofNat]
  rfl

/-! ### `Unescape` by its cases (R171, R173) -/

@[simp] theorem unescape_pair (x : Byte) (rest : List Byte) :
    unescape (ESC :: x :: rest) = unescapeByte x :: unescape rest := rfl

theorem unescape_cons_of_ne {b : Byte} (h : b ≠ ESC) (rest : List Byte) :
    unescape (b :: rest) = b :: unescape rest := by
  cases rest with
  | nil => exact if_neg h
  | cons x rest => exact if_neg h

/-- Settles O31: the empty and the dangling case compute, the other two are the equations above. -/
theorem unescapeByCases : Obligations.UnescapeByCases := by
  refine ⟨rfl, rfl, fun x rest => ?_, fun b rest h => unescape_cons_of_ne h rest⟩
  rw [unescape_pair, unescapeByte_eq_ofNat]

/-! ### `Escape` of one byte and of a frame (R174) -/

theorem isReserved_iff {b : Byte} : isReserved b = true ↔ b ∈ reservedBytes := by
  simp [isReserved, reservedBytes, or_assoc]

theorem escByte_of_reserved {b : Byte} (h : b ∈ reservedBytes) : escByte b = [ESC, b + ESC_OFFSET] :=
  if_pos (isReserved_iff.2 h)

theorem escByte_of_not_reserved {b : Byte} (h : b ∉ reservedBytes) : escByte b = [b] :=
  if_neg (mt isReserved_iff.1 h)

theorem ne_esc_of_not_reserved {b : Byte} (h : b ∉ reservedBytes) : b ≠ ESC :=
  fun he => h (he ▸ by decide)

/-- The second byte of a pair that escapes a reserved byte (R178). -/
theorem add_offset_mem_of_reserved {b : Byte} (h : b ∈ reservedBytes) :
    b + ESC_OFFSET ∈ [0x9A#8, 0x9B#8, 0x9C#8] :=
  List.mem_map_of_mem (f := (· + ESC_OFFSET)) h

theorem add_offset_not_reserved {b : Byte} (h : b ∈ reservedBytes) : b + ESC_OFFSET ∉ reservedBytes :=
  (by decide : ∀ x ∈ [0x9A#8, 0x9B#8, 0x9C#8], x ∉ reservedBytes) _ (add_offset_mem_of_reserved h)

theorem escapeTail_concat (mid : List Byte) (last : Byte) :
    escapeTail (mid ++ [last]) = mid.flatMap escByte ++ [last] := by
  induction mid with
  | nil => rfl
  | cons b mid ih =>
    obtain ⟨c, rest, hc⟩ : ∃ c rest, mid ++ [last] = c :: rest := List.exists_cons_of_ne_nil (by simp)
    rw [List.cons_append, hc, escapeTail, ← hc, ih, List.flatMap_cons, List.append_assoc]

theorem escape_cons_concat (first : Byte) (mid : List Byte) (last : Byte) :
    escape (first :: mid ++ [last]) = first :: mid.flatMap escByte ++ [last] :=
  congrArg (first :: ·) (escapeTail_concat mid last)

/-! ### Round trip (R176) -/

theorem unescape_escByte_append (b : Byte) (rest : List Byte) :
    unescape (escByte b ++ rest) = b :: unescape rest := by
  by_cases h : b ∈ reservedBytes
  · simp [escByte_of_reserved h]
  · simp [escByte_of_not_reserved h, unescape_cons_of_ne (ne_esc_of_not_reserved h)]

theorem unescape_flatMap_escByte_append (mid rest : List Byte) :
    unescape (mid.flatMap escByte ++ rest) = mid ++ unescape rest := by
  induction mid with
  | nil => rfl
  | cons b mid ih => rw [List.flatMap_cons, List.append_assoc, unescape_escByte_append, ih, List.cons_append]

/-- Settles O58: the first and the last byte are no ESC and pass through, and what `Escape` writes for a byte between
is unescaped to that byte. -/
theorem unescapeInvertsEscape : Obligations.UnescapeInvertsEscape := by
  intro x hfirst hlast
  cases x with
  | nil => rfl
  | cons first rest =>
    have hf : first ≠ ESC := by simpa using hfirst
    rcases rest.eq_nil_or_concat' with rfl | ⟨mid, last, rfl⟩
    · exact unescape_cons_of_ne hf []
    · have hl : last ≠ ESC := by simpa [List.getLast?_cons] using hlast
      calc unescape (escape (first :: mid ++ [last]))
          = unescape (first :: (mid.flatMap escByte ++ [last])) := congrArg unescape (escape_cons_concat first mid last)
        _ = first :: (mid ++ unescape [last]) := by
          rw [unescape_cons_of_ne hf, unescape_flatMap_escByte_append]
        _ = first :: mid ++ [last] := by rw [unescape_cons_of_ne hl]; rfl

/-! ### No marker inside an escaped frame (R177, R178) -/

theorem length_escByte (b : Byte) : (escByte b).length = 1 + if isReserved b then 1 else 0 := by
  unfold escByte
  split <;> rfl

/-- Escaping adds one byte for each reserved byte (R177). -/
theorem length_flatMap_escByte (mid : List Byte) :
    (mid.flatMap escByte).length = mid.length + mid.countP isReserved := by
  induction mid with
  | nil => rfl
  | cons b mid ih =>
    rw [List.flatMap_cons, List.length_append, length_escByte, ih, List.length_cons, List.countP_cons]
    omega

/-- The only reserved byte `Escape` writes for a byte is ESC. -/
theorem not_mem_flatMap_escByte {m : Byte} (hm : m ∈ reservedBytes) (hesc : m ≠ ESC) (mid : List Byte) :
    m ∉ mid.flatMap escByte := by
  intro hmem
  obtain ⟨b, -, hb⟩ := List.mem_flatMap.1 hmem
  by_cases h : b ∈ reservedBytes
  · have hsecond : m = b + ESC_OFFSET := by simpa [escByte_of_reserved h, hesc] using hb
    exact add_offset_not_reserved h (hsecond ▸ hm)
  · have hself : m = b := by simpa [escByte_of_not_reserved h] using hb
    exact h (hself ▸ hm)

/-- An ESC stands where a reserved byte was escaped, directly before the second byte of its pair. -/
theorem esc_followed_in_flatMap_escByte (mid : List Byte) (k : Nat) (hk : (mid.flatMap escByte)[k]? = some ESC) :
    ∃ x ∈ [0x9A#8, 0x9B#8, 0x9C#8], (mid.flatMap escByte)[k + 1]? = some x := by
  induction mid generalizing k with
  | nil => simp at hk
  | cons b mid ih =>
    by_cases h : b ∈ reservedBytes
    · rw [List.flatMap_cons, escByte_of_reserved h] at hk ⊢
      match k with
      | 0 => exact ⟨_, add_offset_mem_of_reserved h, rfl⟩
      | 1 =>
        have hsecond : b + ESC_OFFSET = ESC := Option.some.inj hk
        exact absurd hsecond (ne_esc_of_not_reserved (add_offset_not_reserved h))
      | k + 2 => exact ih k hk
    · rw [List.flatMap_cons, escByte_of_not_reserved h] at hk ⊢
      match k with
      | 0 => exact absurd (Option.some.inj hk) (ne_esc_of_not_reserved h)
      | k + 1 => exact ih k hk

/-- Settles O59: the middle is the bytes between START and END, each written by `escByte`. -/
theorem escapedFrameHasNoInnerMarkers : Obligations.EscapedFrameHasNoInnerMarkers := by
  intro inner
  refine ⟨inner.flatMap escByte, escape_cons_concat START inner END,
    not_mem_flatMap_escByte (by decide) (by decide) inner, not_mem_flatMap_escByte (by decide) (by decide) inner,
    fun k hk => ?_, ?_, ?_⟩
  · obtain ⟨x, hx, hnext⟩ := esc_followed_in_flatMap_escByte inner k hk
    exact hnext ▸ List.mem_map_of_mem (f := some) hx
  · rw [length_flatMap_escByte]
    exact Nat.le_add_right ..
  · have hcount : inner.countP isReserved ≤ inner.length := List.countP_le_length
    rw [length_flatMap_escByte]
    omega

end Sys2Proof.Machine
end

section
/-! ## The invariant is kept (R31, R85, R191, R206, R212, R221) -/

namespace Sys2Proof.Machine

/-! ### The invariant, phase by phase -/

/-- The part of the invariant that says nothing about the phase. -/
structure SoundBlock (s : State) : Prop where
  params : s.params.wf = true
  table : s.crctab = crcTable
  engine : s.eng ≠ .failed ∧ s.faultReg ≠ .crcSelftestFail
  buffer : s.rxbuf = [] ∨ s.rxbuf.head? = some START ∧ END ∉ s.rxbuf
  capacity : ∀ cap, s.params.bufCap = some cap → s.rxbuf.length ≤ cap
  slots : Memory.wf s.params.maxSlots s.dev = true

theorem Sound.block {s : State} (hs : Sound s) : SoundBlock s := { hs with }

/-- The engine is READY and no fatal fault is set, as a running operation asks (R150, R322). -/
def Operating (s : State) : Prop := s.eng = .ready ∧ s.faultReg = .none

theorem Sound.operating {s : State} (hs : Sound s) {p : Phase} (hp : s.phase = p) (hi : p ≠ .idle := by decide) :
    Operating s :=
  hs.running (hp ▸ hi)

namespace SoundBlock

variable {s : State} (h : SoundBlock s)
include h

theorem sound_idle (hp : s.phase = .idle) (hc : s.chunk = []) (hw : s.work = Work.empty) : Sound s :=
  { h with
    running := fun hn => absurd hp hn
    between := fun _ => hc
    noFrame := fun _ => hw
    fresh := by simp [hp]
    unescaping := by simp [hp]
    checking := by simp [hp]
    walking := by simp [hp] }

theorem sound_scan (ho : Operating s) (hp : s.phase = .scan) (hw : s.work = Work.empty) : Sound s :=
  { h with
    running := fun _ => ho
    between := by simp [hp]
    noFrame := fun _ => hw
    fresh := by simp [hp]
    unescaping := by simp [hp]
    checking := by simp [hp]
    walking := by simp [hp] }

theorem sound_unescape (ho : Operating s) (hp : s.phase = .unescape)
    (hf : s.work.curslot = none ∧ s.work.lastrec = none ∧ s.work.pb = PassingBuilder.empty)
    (hu : s.work.u ++ unescape s.work.fcur = unescape s.work.frm) : Sound s :=
  { h with
    running := fun _ => ho
    between := by simp [hp]
    noFrame := by simp [hp]
    fresh := fun _ => hf
    unescaping := fun _ => hu
    checking := by simp [hp]
    walking := by simp [hp] }

theorem sound_check (ho : Operating s) (hp : s.phase = .check)
    (hf : s.work.curslot = none ∧ s.work.lastrec = none ∧ s.work.pb = PassingBuilder.empty)
    (hu : s.work.u = unescape s.work.frm) : Sound s :=
  { h with
    running := fun _ => ho
    between := by simp [hp]
    noFrame := by simp [hp]
    fresh := fun _ => hf
    unescaping := by simp [hp]
    checking := fun _ => hu
    walking := by simp [hp] }

theorem sound_walk (ho : Operating s) (hp : s.phase = .walk) (hr : s.work.rtype ∈ recognisedCodes)
    (hs : s.work.p <:+ s.work.u.drop HDR_LEN) : Sound s :=
  { h with
    running := fun _ => ho
    between := by simp [hp]
    noFrame := by simp [hp]
    fresh := by simp [hp]
    unescaping := by simp [hp]
    checking := by simp [hp]
    walking := fun _ => ⟨hr, hs⟩ }

/-- A frame's decode begins with nothing unescaped (R206, R221). -/
theorem sound_beginFrame (ho : Operating s) (frm : List Byte) : Sound (beginFrame frm s) := by
  have hb : SoundBlock (beginFrame frm s) := { h with }
  exact hb.sound_unescape ho rfl ⟨rfl, rfl, rfl⟩ rfl

/-- A dropped or finished frame leaves no working state (R221). -/
theorem sound_endFrame (ho : Operating s) : Sound (endFrame s) := by
  have hb : SoundBlock (endFrame s) := { h with }
  exact hb.sound_scan ho rfl rfl

/-- An overflow ends the operation with the fatal fault and keeps `RXBUF` (R323). -/
theorem sound_overflow (hw : s.work = Work.empty) : Sound (overflow s) := by
  have hb : SoundBlock (overflow s) := { h with engine := ⟨h.engine.1, by simp [overflow_eq]⟩ }
  exact hb.sound_idle rfl rfl hw

end SoundBlock

/-! ### Between operations -/

theorem Sound.answer {s : State} (hs : Sound s) (r : Reply) : Sound (answer r s) := { hs with }

theorem Sound.resetBlock {s : State} (hs : Sound s) : Sound (resetBlock s) := { sound_resetWith hs.params with }

/-- `Init` succeeds, so an operation that needs the engine keeps the invariant when it does so from READY (R157). -/
theorem Sound.withEngine {op : State → State} {s : State} (hs : Sound s) (hf : s.faultReg = .none)
    (h : Sound { s with eng := .ready } → Sound (op { s with eng := .ready })) : Sound (withEngine op s) := by
  rw [withEngine_sound op hs.table hs.engine.1 hf]
  exact h { hs with engine := ⟨by simp, hs.engine.2⟩, running := fun _ => ⟨rfl, hf⟩ }

/-- A performed operation ends at once, or begins its scan or its frame. -/
theorem Sound.performOp {op : HostOp} {s : State} (hs : Sound s) (hp : s.phase = .idle)
    (h : s.faultReg = .none ∨ op.alwaysAdmitted = true) : Sound (performOp op s) := by
  have hw : s.work = Work.empty := hs.noFrame (.inl hp)
  have hfault (ha : op.alwaysAdmitted = false) : s.faultReg = .none := h.resolve_right (by simp [ha])
  cases op <;> simp only [Machine.performOp]
  case reset => exact hs.resetBlock.answer _
  case read => exact hs.answer _
  case takeOutcome =>
    have ht : Sound { s with evq := s.evq.tail } := { hs with }
    exact ht.answer _
  case noteRtcRequest time =>
    have ht : Sound (devWrite (fun d => { d with rtcReqAt := some time }) s) := { hs with }
    exact ht.answer _
  case init | crcCompute | buildFrame => exact hs.withEngine (hfault rfl) fun hr => hr.answer _
  case ingest chunk now =>
    refine hs.withEngine (hfault rfl) fun hr => ?_
    have hb : SoundBlock { s with eng := .ready, chunk := chunk, now := now, phase := .scan } := { hr with }
    exact hb.sound_scan ⟨rfl, hfault rfl⟩ rfl hw
  case decodeFrame frm now =>
    refine hs.withEngine (hfault rfl) fun hr => ?_
    have hb : SoundBlock { s with eng := .ready, chunk := [], now := now } := { hr with }
    exact hb.sound_beginFrame ⟨rfl, hfault rfl⟩ frm

theorem Sound.hostOp {op : HostOp} {s : State} (hs : Sound s) (hp : s.phase = .idle) : Sound (hostOp op s) := by
  by_cases h : s.faultReg = .none ∨ op.alwaysAdmitted = true
  · rw [hostOp_performed h]
    exact hs.performOp hp h
  · simp only [not_or, Bool.not_eq_true] at h
    rw [hostOp_refused h.1 h.2]
    exact hs.answer _

theorem Sound.hostStep {s : State} (hs : Sound s) (hp : s.phase = .idle) : Sound (hostStep s) := by
  rcases hostStep_cases s with ⟨-, e⟩ | ⟨op, rest, -, e⟩ <;> rw [e]
  · exact hs
  · have hq : Sound { s with hostq := rest } := { hs with }
    exact hq.hostOp hp

/-! ### In the extractor -/

theorem hasRoom_iff {s : State} : hasRoom s = true ↔ Room s := by
  unfold hasRoom Room
  cases s.params.bufCap <;> simp

/-- The frame in progress is empty, or begins with START and holds no END (R191). -/
def InProgress (acc : List Byte) : Prop := acc = [] ∨ acc.head? = some START ∧ END ∉ acc

theorem InProgress.append {acc : List Byte} {b : Byte} (h : InProgress acc) (hopen : acc ≠ [] ∨ b = START)
    (hb : b ≠ END) : InProgress (acc ++ [b]) := by
  rcases h with he | ⟨hstart, hend⟩
  · exact .inr ⟨by simpa [he] using hopen, by simp [he, hb.symm]⟩
  · exact .inr ⟨by simp [hstart], by simp [hend, hb.symm]⟩

/-- An appended byte keeps the frame in progress within the capacity (R198). -/
theorem SoundBlock.append {s : State} (h : SoundBlock s) {b : Byte} (hopen : s.rxbuf ≠ [] ∨ b = START) (hb : b ≠ END)
    (hroom : Room s) : SoundBlock { s with rxbuf := s.rxbuf ++ [b] } :=
  { h with
    buffer := InProgress.append h.buffer hopen hb
    capacity := fun cap hc => by simpa using hroom cap hc }

/-- A stream byte in the extractor (R192 to R198). -/
theorem Sound.exec_streamInstr {s t : State} {b : Byte} (hs : Sound s) (hp : s.phase = .scan)
    (h : exec (streamInstr b) s = .next t) : Sound t := by
  have ho : Operating s := hs.operating hp
  have hw : s.work = Work.empty := hs.noFrame (.inr hp)
  rcases exec_streamInstr_cases b s with ⟨-, -, e⟩ | ⟨-, -, e⟩ | ⟨hopen, hb, hroom, e⟩ | ⟨-, -, -, e⟩ <;>
    cases e.symm.trans h
  · exact hs
  · exact hs.block.sound_overflow hw
  · exact (hs.block.append hopen hb (hasRoom_iff.1 hroom)).sound_scan ho hp hw
  · have hb : SoundBlock { s with rxbuf := [] } :=
      { hs.block with buffer := .inl rfl, capacity := fun _ _ => Nat.zero_le _ }
    exact hb.sound_beginFrame ho _

/-! ### In the decode of a frame -/

/-- Reading the candidate where no pair stands keeps what is unescaped and what is unread together `Unescape(FRM)`. -/
theorem Sound.copyPlain {s : State} (hs : Sound s) (hp : s.phase = .unescape)
    (hc : ∀ x rest, s.work.fcur ≠ ESC :: x :: rest) : Sound (copyPlain s) := by
  have ho : Operating s := hs.operating hp
  have hf := hs.fresh (.inl hp)
  have hu := hs.unescaping hp
  rcases copyPlain_cases s with ⟨hn, e⟩ | ⟨rest, hr, e⟩ | ⟨b, rest, hb, hr, e⟩ <;> rw [e]
  · have hblock : SoundBlock { s with phase := .check } := { hs.block with }
    exact hblock.sound_check ho rfl hf (by simpa [hn, unescape] using hu)
  · obtain rfl : rest = [] := by
      cases rest with
      | nil => rfl
      | cons x rest => exact absurd hr (hc x rest)
    have hblock : SoundBlock { s with work := { s.work with fcur := [] } } := { hs.block with }
    exact hblock.sound_unescape ho hp hf (by simpa [hr, unescape] using hu)
  · have hblock : SoundBlock { s with work := { s.work with fcur := rest, u := s.work.u ++ [b] } } := { hs.block with }
    exact hblock.sound_unescape ho hp hf (by simpa [hr, unescape_cons_of_ne hb] using hu)

/-- A frame that is dropped, whatever the cause (R320). -/
theorem SoundBlock.sound_drop {s : State} (h : SoundBlock s) (ho : Operating s) (c : Cause) (r : Option U16)
    (tag : Option Byte) : Sound (drop c r tag s) := by
  have hb : SoundBlock (log c r tag s) := { h with }
  exact hb.sound_endFrame ho

theorem code_mem_recognisedCodes (r : RecordType) : r.code ∈ recognisedCodes := by
  cases r <;> decide

/-- A record type starts a walk over the whole payload or drops the frame (R211, R213, R314). -/
theorem SoundBlock.exec_frameInstrOfCode {s t : State} (hb : SoundBlock s) (ho : Operating s) {code : U16}
    (h : exec (frameInstrOfCode code) s = .next t) : Sound t := by
  rcases exec_frameInstrOfCode_cases code s with ⟨r, e⟩ | e <;> cases e.symm.trans h
  · have hblock : SoundBlock (startWalk r s) := { hb with }
    exact hblock.sound_walk ho rfl (code_mem_recognisedCodes r) (List.suffix_refl _)
  · have hblock : SoundBlock { s with work := { s.work with rtype := code } } := { hb with }
    exact hblock.sound_drop ho ..

/-- A field keeps the walk's record type and payload, and the per-slot files canonical (R85). -/
theorem Sound.exec_field {i : Instr} (hi : i.field.isSome = true) {s t : State} (hs : Sound s) (hp : s.phase = .walk)
    (h : exec i s = .next t) : Sound t := by
  have ho : Operating s := hs.operating hp
  obtain ⟨hr, hsuf⟩ := hs.walking hp
  have hslots := memory_wf_exec_field hi h hs.slots
  obtain ⟨u, hu, hshape⟩ := exec_field_shape hi s
  cases hu.symm.trans h
  rcases hshape with ⟨_, rfl⟩ | e
  · exact { hs with }
  · rw [e]
    have hblock : SoundBlock { s with
        dev := t.dev
        work := { s.work with curslot := t.work.curslot, pb := t.work.pb, lastrec := t.work.lastrec } } :=
      { hs.block with slots := hslots }
    exact hblock.sound_walk ho hp hr hsuf

/-! ### Every step -/

/-- Settles O39: each way a step can go, by the phase it starts in. -/
theorem stepKeepsStatesSound : Obligations.StepKeepsStatesSound := by
  intro s t hs h
  rcases step_cases h with ⟨hp, rfl⟩ | ⟨hp, -, rfl⟩ | ⟨b, rest, hp, -, he⟩ | ⟨x, rest, hp, hx, rfl⟩ | ⟨hp, hc, rfl⟩ |
    ⟨c, hp, -, rfl⟩ | ⟨hp, -, he⟩ | ⟨hp, -, rfl⟩ | ⟨tag, len, rest, hp, -, -, -, rfl⟩ |
    ⟨r, tag, len, rest, hp, -, hq, -, -, he⟩
  · exact hs.hostStep hp
  · have hb : SoundBlock (finish .done s) := { hs.block with }
    exact hb.sound_idle rfl rfl (hs.noFrame (.inr hp))
  · have hb : SoundBlock { s with chunk := rest } := { hs.block with }
    exact (hb.sound_scan (hs.operating hp) hp (hs.noFrame (.inr hp))).exec_streamInstr hp he
  · have hb : SoundBlock { s with work := { s.work with fcur := rest, u := s.work.u ++ [unescapeByte x] } } :=
      { hs.block with }
    exact hb.sound_unescape (hs.operating hp) hp (hs.fresh (.inl hp)) (by simpa [hx] using hs.unescaping hp)
  · exact hs.copyPlain hp hc
  · exact hs.block.sound_drop (hs.operating hp) ..
  · have hb : SoundBlock { s with work := { s.work with u := zeroCrcField s.work.u } } := { hs.block with }
    exact hb.exec_frameInstrOfCode (hs.operating hp) he
  · have hb : SoundBlock (emit s) := { hs.block with }
    exact hb.sound_endFrame (hs.operating hp)
  · exact hs.block.sound_drop (hs.operating hp) ..
  · have hb : SoundBlock { s with work := { s.work with p := rest.drop len.toNat } } := { hs.block with }
    obtain ⟨hr, hsuf⟩ := hs.walking hp
    have hrest : rest.drop len.toNat <:+ s.work.p :=
      hq ▸ (List.drop_suffix ..).trans ((List.suffix_cons ..).trans (List.suffix_cons ..))
    exact (hb.sound_walk (hs.operating hp) hp hr (hrest.trans hsuf)).exec_field
      (by rw [fieldInstr_field]; rfl) hp he

end Sys2Proof.Machine
end

section
/-! ## One step of the extractor, and the instruction a step runs (R171, R192 to R197, R211, R217) -/

namespace Sys2Proof.Machine

theorem accumulate_of_room {s : State} (h : Room s) (b : Byte) :
    accumulate b s = { s with rxbuf := s.rxbuf ++ [b] } := if_pos (hasRoom_iff.2 h)

/-- In HUNT a byte other than START is discarded (R195 to R197). -/
theorem collect_of_hunt {s : State} (h : s.rxbuf = []) (b : Byte) : collect b s = s := if_pos h

/-- In COLLECT a byte other than END is appended (R196, R197). -/
theorem collect_of_collect {s : State} (h : s.rxbuf ≠ []) (hr : Room s) (b : Byte) :
    collect b s = { s with rxbuf := s.rxbuf ++ [b] } := by
  rw [collect, if_neg h, accumulate_of_room hr]

theorem closeFrame_of_hunt {s : State} (h : s.rxbuf = []) : closeFrame s = s := if_pos h

theorem closeFrame_of_collect {s : State} (h : s.rxbuf ≠ []) (hr : Room s) :
    closeFrame s = beginFrame (s.rxbuf ++ [END]) { s with rxbuf := [] } := by
  rw [closeFrame, if_neg h, if_pos (hasRoom_iff.2 hr)]

/-- Settles O10: each byte class is one call of `accumulate`, `collect` or `closeFrame`. -/
theorem streamBytesByExtractorState : Obligations.StreamBytesByExtractorState := by
  refine ⟨fun s h => ⟨fun hr => ?_, congrArg _ (closeFrame_of_hunt h), congrArg _ (collect_of_hunt h _),
      fun b => congrArg _ (collect_of_hunt h b)⟩,
    fun s h hr => ⟨congrArg _ (accumulate_of_room hr _), congrArg _ (collect_of_collect h hr _),
      fun b => congrArg _ (collect_of_collect h hr b), congrArg _ (closeFrame_of_collect h hr)⟩⟩
  have hopen : accumulate START s = { s with rxbuf := [START] } := by rw [accumulate_of_room hr, h, List.nil_append]
  exact congrArg _ hopen

/-- Settles O28: the step of the phase, with what the decoder answers put in. -/
theorem stepRunsTheDecodedInstruction : Obligations.StepRunsTheDecodedInstruction := by
  refine ⟨fun s i rest hp hd => ?_, fun s i rest hp hd => ?_, fun s i rest hp hj hd => ?_, fun s i rest hp hl hd => ?_⟩
  · simp only [step, controlStep, hp, stepScan, hd]
  · simp only [step, controlStep, hp, stepUnescape, hd]
  · simp only [step, controlStep, hp, stepCheck, hj, hd]
  · simp only [step, controlStep, hp, stepWalk, TLV_STOP, if_neg (Nat.not_le.2 hl), hd]

end Sys2Proof.Machine
end

section
/-! ## `DecodeFrame` of a whole candidate (R205 to R223)

A field reads and writes nothing of the stream, of the host's side and of the frame it stands in. So the walk of the
machine, which moves its cursor through the payload, and the pseudocode, which has no cursor, apply the same fields to
states that differ in that context alone. -/

namespace Sys2Proof.Machine

/-! ### The context of a field -/

/-- The state `s` with the stream and the host's side of `e`. -/
def withStreamOf (e s : State) : State :=
  { s with rxbuf := e.rxbuf, chunk := e.chunk, phase := e.phase, hostq := e.hostq, replies := e.replies }

/-- The state `s` with the stream and the host's side of `e` and the frame of `w`. -/
def inContext (e : State) (w : Work) (s : State) : State :=
  { withStreamOf e s with
    work := { w with curslot := s.work.curslot, pb := s.work.pb, lastrec := s.work.lastrec } }

/-- The operation neither reads nor writes the context. -/
def IgnoresContext (k : State → State) : Prop := ∀ e w s, k (inContext e w s) = inContext e w (k s)

namespace IgnoresContext

theorem of_skip (c : Cause) (r : RecordType) (tag : Byte) : IgnoresContext (skip c r tag) := fun _ _ _ => rfl

theorem of_withUInt {r : RecordType} {tag : Byte} {val : List Byte} {k : U64 → State → State}
    (h : ∀ v, IgnoresContext (k v)) : IgnoresContext (withUInt r tag val k) := by
  intro e w s
  unfold withUInt
  split
  · exact h _ e w s
  · rfl

theorem of_withF32 {r : RecordType} {tag : Byte} {val : List Byte} {k : U32 → State → State}
    (h : ∀ v, IgnoresContext (k v)) : IgnoresContext (withF32 r tag val k) := by
  intro e w s
  unfold withF32
  split
  · exact h _ e w s
  · rfl

/-- The guard of a per-slot write reads the current slot and `MAX_SLOTS`, which are no context (R228). -/
theorem of_slotWrite (r : RecordType) (tag : Byte) (write : Nat → DeviceModel → DeviceModel) :
    IgnoresContext (slotWrite r tag write) := by
  intro e w s
  have hslot : (inContext e w s).work.curslot = s.work.curslot := rfl
  have hmax : (inContext e w s).params = s.params := rfl
  unfold slotWrite
  rw [hslot, hmax]
  split
  · rfl
  · split <;> rfl

/-- The correlation reads the pending request and `NOW`, which are no context (R281). -/
theorem of_correlate (v : U64) :
    IgnoresContext fun s => correlate v (devWrite (fun d => { d with rtcTime := some v }) s) := by
  intro e w s
  have hreq : (devWrite (fun d => { d with rtcTime := some v }) (inContext e w s)).dev.rtcReqAt = s.dev.rtcReqAt := rfl
  have hreq' : (devWrite (fun d => { d with rtcTime := some v }) s).dev.rtcReqAt = s.dev.rtcReqAt := rfl
  simp only [correlate, hreq, hreq']
  split <;> rfl

end IgnoresContext

open IgnoresContext in
/-- Every field ignores its context. -/
theorem exec_field_inContext {i : Instr} (hi : i.field.isSome = true) {s t : State} (h : exec i s = .next t)
    (e : State) (w : Work) : exec i (inContext e w s) = .next (inContext e w t) := by
  cases i <;> cases h
  case byteStart | byteEnd | byteEsc | byteData | escPair | rssi | rfsetup | statectl | settings | desc | passing | status
      | time | error | frameUnknown => simp [Instr.field] at hi
  case rssiMin | rssiMax | rssiMean | rfsetupThreshold | statusLastrssi =>
    exact congrArg _ (of_withF32 (fun v => of_slotWrite _ _ _) e w s)
  case rfsetupEnabled | rfsetupChannel | rfsetupBand | rfsetupGain | rfsetupFreq =>
    exact congrArg _ (of_withUInt (fun v => of_slotWrite _ _ _) e w s)
  case timeRtc => exact congrArg _ (of_withUInt of_correlate e w s)
  case rssiSlot | rfsetupSlot | statusSlot | passingSlot | passingRtc | passingDecoder | passingNumber | passingPeak
      | passingFlags | statectlGate | statusGate | settingsMinlap | statusFlags | statusBatt | statusDetect | timeTrt =>
    exact congrArg _ (of_withUInt (fun v _ _ _ => rfl) e w s)
  case rssiX23 | rssiX26 | settingsStatusint | descAny | errorAny | rssiUnknown | rfsetupUnknown | statectlUnknown
      | settingsUnknown | passingUnknown | statusUnknown | timeUnknown => rfl

/-! ### The fields of a walk -/

/-- The dispatch of the pseudocode is the field's instruction, which completes (R218). -/
theorem exec_fieldInstr (r : RecordType) (s : State) (f : Byte × List Byte) :
    exec (fieldInstr r f.1 f.2) s = .next (dispatchField r s f) := by
  obtain ⟨t, ht⟩ := exec_completes (fieldInstr r f.1 f.2) s
  rw [dispatchField, ht]

theorem exec_fieldInstr_inContext (r : RecordType) (s : State) (f : Byte × List Byte) (e : State) (w : Work) :
    exec (fieldInstr r f.1 f.2) (inContext e w s) = .next (inContext e w (dispatchField r s f)) :=
  exec_field_inContext (by rw [fieldInstr_field]; rfl) (exec_fieldInstr r s f) e w

theorem dispatchField_inContext (r : RecordType) (s : State) (f : Byte × List Byte) (e : State) (w : Work) :
    dispatchField r (inContext e w s) f = inContext e w (dispatchField r s f) :=
  Host.Outcome.next.inj ((exec_fieldInstr r _ f).symm.trans (exec_fieldInstr_inContext r s f e w))

theorem dispatchField_decodingShape (r : RecordType) (s : State) (f : Byte × List Byte) :
    DecodingShape s (dispatchField r s f) :=
  exec_fieldInstr_decodingShape (w := s.work) (exec_fieldInstr r s f)

theorem DecodingShape.trans {s t u : State} (h : DecodingShape s t) (h' : DecodingShape t u) : DecodingShape s u := by
  rw [DecodingShape, h', h]

/-- The stream and the host's side of the state before, another phase apart, are those after. -/
theorem DecodingShape.withStreamOf_phase {s t : State} (h : DecodingShape s t) (p : Phase) :
    withStreamOf { s with phase := p } t = { t with phase := p } := by
  rw [h]
  rfl

/-- What each element of a list keeps, the whole list keeps. -/
theorem foldl_decodingShape {β : Type} {step : State → β → State} (h : ∀ s b, DecodingShape s (step s b))
    (bs : List β) (s : State) : DecodingShape s (bs.foldl step s) := by
  induction bs generalizing s with
  | nil => rfl
  | cons b bs ih => exact (h s b).trans (ih _)

/-- The steps 5 to 7 of `DecodeFrame` on a payload cut into fields: the last part of `decodeFrameSpec`. -/
def walkFields (r : RecordType) (code : U16) (fields : List (Byte × List Byte) × Option Byte) (s : State) : State :=
  let t : State := fields.1.foldl (dispatchField r) s
  let t : State := match fields.2 with
    | some tag => log .truncatedTlv (some code) (some tag) t
    | none => { t with evq := t.evq ++ [⟨code, t.work.curslot, t.work.lastrec⟩] }
  { t with work := Work.empty }

theorem walkFields_cons (r : RecordType) (code : U16) (f : Byte × List Byte) (fs : List (Byte × List Byte))
    (o : Option Byte) (s : State) :
    walkFields r code (f :: fs, o) s = walkFields r code (fs, o) (dispatchField r s f) := rfl

theorem walkFields_decodingShape (r : RecordType) (code : U16) (fields : List (Byte × List Byte) × Option Byte)
    (s : State) : DecodingShape s (walkFields r code fields s) := by
  refine (foldl_decodingShape (dispatchField_decodingShape r) fields.1 s).trans ?_
  unfold walkFields
  cases fields.2 <;> rfl

theorem walkFields_inContext (r : RecordType) (code : U16) (fields : List (Byte × List Byte) × Option Byte) (e : State)
    (w : Work) (s : State) :
    walkFields r code fields (inContext e w s) = withStreamOf e (walkFields r code fields s) := by
  have hfold : fields.1.foldl (dispatchField r) (inContext e w s) =
      inContext e w (fields.1.foldl (dispatchField r) s) :=
    List.foldl_hom _ fun s f => dispatchField_inContext r s f e w
  simp only [walkFields, hfold]
  cases fields.2 <;> rfl

/-! ### The walk of the machine -/

theorem splitFields_end (n : Nat) {p : List Byte} (h : p.length ≤ 3) : splitFields n p = ([], none) := by
  cases n with
  | zero => rfl
  | succ n => exact if_neg (Nat.not_lt.2 h)

theorem splitFields_truncated (n : Nat) {tag len : Byte} {rest : List Byte} (hl : 3 < (tag :: len :: rest).length)
    (ht : rest.length < len.toNat) : splitFields (n + 1) (tag :: len :: rest) = ([], some tag) := by
  rw [splitFields, if_pos hl, if_pos ht]

theorem splitFields_field (n : Nat) {tag len : Byte} {rest : List Byte} (hl : 3 < (tag :: len :: rest).length)
    (ht : len.toNat ≤ rest.length) : splitFields (n + 1) (tag :: len :: rest) =
      ((tag, rest.take len.toNat) :: (splitFields n (rest.drop len.toNat)).1, (splitFields n (rest.drop len.toNat)).2) := by
  rw [splitFields, if_pos hl, if_neg (Nat.not_lt.2 ht)]

theorem RunsTo.cons {s t u : State} (h : step s = .next t) (hr : RunsTo t u) : RunsTo s u :=
  Relation.ReflTransGen.head h hr

theorem RunsTo.of_step {s t : State} (h : step s = .next t) : RunsTo s t := Relation.ReflTransGen.single h

/-- The walk over a payload comes to where the pseudocode's fields do, whatever the context `e` it runs in. -/
theorem runsTo_walk (n : Nat) (r : RecordType) (s e : State) (w : Work) (hp : e.phase = .walk) (hr : w.rtype = r.code)
    (hn : w.p.length ≤ n) :
    RunsTo (inContext e w s) (withStreamOf { e with phase := .scan } (walkFields r w.rtype (splitFields n w.p) s)) := by
  have hwalk (w : Work) (s : State) : (inContext e w s).phase = .walk := hp
  rcases Nat.lt_or_ge 3 w.p.length with hl | hl
  · obtain ⟨tag, len, rest, hq⟩ : ∃ tag len rest, w.p = tag :: len :: rest :=
      match w.p, hl with
      | tag :: len :: rest, _ => ⟨tag, len, rest, rfl⟩
    cases n with
    | zero => omega
    | succ n =>
      rw [hq] at hl hn
      rcases Nat.lt_or_ge rest.length len.toNat with ht | ht
      · refine .of_step ((step_walk_truncated (hwalk w s) hq (hq ▸ hl) ht).trans ?_)
        rw [hq, splitFields_truncated n hl ht]
        rfl
      · rw [hq, splitFields_field n hl ht, walkFields_cons]
        have hn' : (rest.drop len.toNat).length ≤ n := by
          simp only [List.length_drop, List.length_cons] at hn ⊢
          omega
        exact .cons ((step_walk_field (hwalk w s) hr hq (hq ▸ hl) ht).trans
            (exec_fieldInstr_inContext r s (tag, rest.take len.toNat) e { w with p := rest.drop len.toNat }))
          (runsTo_walk n r _ e { w with p := rest.drop len.toNat } hp hr hn')
  · refine .of_step ((step_walk_end (hwalk w s) hl).trans ?_)
    rw [splitFields_end n hl]
    rfl

/-! ### The candidate unescaped (R206) -/

/-- The decode of `frm` in the reader: `u` is unescaped so far, `fcur` still to be read. -/
def reading (s : State) (frm u fcur : List Byte) : State :=
  { s with phase := .unescape, work := { Work.empty with frm := frm, fcur := fcur, u := u } }

/-- The decode of `frm` before the checks, with `u` unescaped. -/
def checking (s : State) (frm u : List Byte) : State :=
  { s with phase := .check, work := { Work.empty with frm := frm, u := u } }

theorem step_reading_nil (s : State) (frm u : List Byte) : step (reading s frm u []) = .next (checking s frm u) :=
  step_unescape_copy rfl (by simp [reading])

/-- A dangling ESC is dropped (R173). -/
theorem step_reading_dangling (s : State) (frm u : List Byte) :
    step (reading s frm u [ESC]) = .next (reading s frm u []) :=
  step_unescape_copy rfl (by simp [reading])

theorem step_reading_plain (s : State) (frm u rest : List Byte) {b : Byte} (hb : b ≠ ESC) :
    step (reading s frm u (b :: rest)) = .next (reading s frm (u ++ [b]) rest) := by
  rw [step_unescape_copy rfl (by simp [reading, hb])]
  exact congrArg _ (if_neg hb)

theorem step_reading_pair (s : State) (frm u rest : List Byte) (x : Byte) :
    step (reading s frm u (ESC :: x :: rest)) = .next (reading s frm (u ++ [unescapeByte x]) rest) :=
  step_unescape_pair rfl rfl

/-- The reader copies, pairs and drops as `Unescape` does, after any bytes already unescaped. -/
theorem runsTo_checking (s : State) (frm u fcur : List Byte) :
    RunsTo (reading s frm u fcur) (checking s frm (u ++ unescape fcur)) := by
  induction fcur using unescape.induct generalizing u with
  | case1 =>
    rw [unescape, List.append_nil]
    exact .of_step (step_reading_nil ..)
  | case2 =>
    rw [unescape, if_pos rfl, List.append_nil]
    exact .cons (step_reading_dangling ..) (.of_step (step_reading_nil ..))
  | case3 b hb =>
    rw [unescape, if_neg hb]
    exact .cons (step_reading_plain _ _ _ _ hb) (.of_step (step_reading_nil ..))
  | case4 x rest ih =>
    rw [unescape_pair, List.append_cons]
    exact .cons (step_reading_pair ..) (ih _)
  | case5 b x rest hb ih =>
    rw [unescape_cons_of_ne hb, List.append_cons]
    exact .cons (step_reading_plain _ _ _ _ hb) (ih _)

/-! ### The whole decode -/

/-- The record type of an unescaped frame, at offset 5 (R211). -/
def frameType (u : List Byte) : U16 := u16le (u.getD 5 0) (u.getD 6 0)

/-- A frame that fails a check (R207 to R209, R324). -/
theorem decodeFrameSpec_dropped {frm : List Byte} {s : State} {c : Cause}
    (hj : judgeFrame s.crctab (unescape frm) = some c) :
    decodeFrameSpec frm s = log c none none { s with work := Work.empty } := by
  unfold judgeFrame at hj
  split_ifs at hj with hl hs hc <;> cases hj
  · exact if_pos hl
  · exact (if_neg hl).trans (if_pos hs)
  · exact (if_neg hl).trans ((if_neg hs).trans (if_pos hc))

/-- A frame that passes the checks is dropped for its type or walked (R211 to R223, R314). -/
theorem decodeFrameSpec_passed {frm : List Byte} {s : State} (hj : judgeFrame s.crctab (unescape frm) = none) :
    decodeFrameSpec frm s = match RecordType.ofCode (frameType (unescape frm)) with
      | none => log .unknownType (some (frameType (unescape frm))) none { s with work := Work.empty }
      | some r => walkFields r (frameType (unescape frm))
          (splitFields (unescape frm).length ((unescape frm).drop 7)) { s with work := Work.empty } := by
  obtain ⟨hl, hs, hc⟩ := judgeFrame_none hj
  exact (if_neg (Nat.not_lt.2 hl)).trans ((if_neg (not_not.2 hs)).trans (if_neg (not_not.2 hc)))

theorem decodeFrameSpec_unknown {frm : List Byte} {s : State} (hj : judgeFrame s.crctab (unescape frm) = none)
    (hr : RecordType.ofCode (frameType (unescape frm)) = none) :
    decodeFrameSpec frm s = log .unknownType (some (frameType (unescape frm))) none { s with work := Work.empty } := by
  rw [decodeFrameSpec_passed hj, hr]

theorem decodeFrameSpec_recognised {frm : List Byte} {s : State} {r : RecordType}
    (hj : judgeFrame s.crctab (unescape frm) = none) (hr : RecordType.ofCode (frameType (unescape frm)) = some r) :
    decodeFrameSpec frm s = walkFields r (frameType (unescape frm))
      (splitFields (unescape frm).length ((unescape frm).drop 7)) { s with work := Work.empty } := by
  rw [decodeFrameSpec_passed hj, hr]

/-- What `DecodeFrame` of a candidate comes to: dropped by a check, dropped for its type, or walked. -/
theorem decodeFrameSpec_cases (frm : List Byte) (tab : List U16) :
    (∃ c, judgeFrame tab (unescape frm) = some c) ∨
    (judgeFrame tab (unescape frm) = none ∧ RecordType.ofCode (frameType (unescape frm)) = none) ∨
    (∃ r, judgeFrame tab (unescape frm) = none ∧ RecordType.ofCode (frameType (unescape frm)) = some r) := by
  cases judgeFrame tab (unescape frm) with
  | some c => exact .inl ⟨c, rfl⟩
  | none =>
    cases RecordType.ofCode (frameType (unescape frm)) with
    | none => exact .inr (.inl ⟨rfl, rfl⟩)
    | some r => exact .inr (.inr ⟨r, rfl, rfl⟩)

theorem decodeFrameSpec_decodingShape (frm : List Byte) (s : State) : DecodingShape s (decodeFrameSpec frm s) := by
  rcases decodeFrameSpec_cases frm s.crctab with ⟨c, hj⟩ | ⟨hj, hr⟩ | ⟨r, hj, hr⟩
  · rw [decodeFrameSpec_dropped hj]
    rfl
  · rw [decodeFrameSpec_unknown hj hr]
    rfl
  · rw [decodeFrameSpec_recognised hj hr]
    exact DecodingShape.trans (t := { s with work := Work.empty }) rfl (walkFields_decodingShape ..)

/-- `DecodeFrame` does not depend on the stream and the host's side, and leaves them alone (R37, R102). -/
theorem decodeFrameSpec_withStreamOf (frm : List Byte) (e s : State) :
    decodeFrameSpec frm (withStreamOf e s) = withStreamOf e (decodeFrameSpec frm s) := by
  rcases decodeFrameSpec_cases frm s.crctab with ⟨c, hj⟩ | ⟨hj, hr⟩ | ⟨r, hj, hr⟩
  · rw [decodeFrameSpec_dropped hj, decodeFrameSpec_dropped (s := withStreamOf e s) hj]
    rfl
  · rw [decodeFrameSpec_unknown hj hr, decodeFrameSpec_unknown (s := withStreamOf e s) hj hr]
    rfl
  · rw [decodeFrameSpec_recognised hj hr, decodeFrameSpec_recognised (s := withStreamOf e s) hj hr]
    exact walkFields_inContext r _ _ e Work.empty { s with work := Work.empty }

/-- From the checks on, the machine comes to where the pseudocode does. -/
theorem runsTo_of_checking (frm : List Byte) (s : State) :
    RunsTo (checking s frm (unescape frm)) { decodeFrameSpec frm s with phase := .scan } := by
  rcases decodeFrameSpec_cases frm s.crctab with ⟨c, hj⟩ | ⟨hj, hr⟩ | ⟨r, hj, hr⟩
  · rw [decodeFrameSpec_dropped hj]
    exact .of_step (step_check_drop rfl hj)
  · rw [decodeFrameSpec_unknown hj hr]
    exact .of_step ((step_check_pass rfl hj).trans (exec_frameInstrOfCode_none hr _))
  · rw [decodeFrameSpec_recognised hj hr]
    refine .cons ((step_check_pass rfl hj).trans (exec_frameInstrOfCode_some hr _)) ?_
    have hcode : frameType (unescape frm) = r.code := ofCode_eq_some hr
    have hwalk := runsTo_walk (unescape frm).length r { s with work := Work.empty } { s with phase := .walk }
      { Work.empty with frm := frm, u := zeroCrcField (unescape frm), rtype := r.code, p := (unescape frm).drop 7 }
      rfl rfl (by simp)
    rw [hcode, ← (walkFields_decodingShape ..).withStreamOf_phase]
    rw [← drop7_zeroCrcField (unescape frm)] at hwalk ⊢
    exact hwalk

/-- `DecodeFrame` of any candidate: the machine runs from its beginning to the state of the pseudocode, back in the
extractor. -/
theorem runsTo_decodeFrameSpec (frm : List Byte) (s : State) :
    RunsTo (beginFrame frm s) { decodeFrameSpec frm s with phase := .scan } :=
  (runsTo_checking s frm [] frm).trans (runsTo_of_checking frm s)

end Sys2Proof.Machine
end

section
/-! ## `Extract` byte by byte (R186, R192, R198)

The machine takes the stream in the byte-serial form of R192, which `cutBytes` writes as a function of the bytes; it is
the whole-buffer form under the capacity. -/

namespace Sys2Proof.Machine

/-- What an extraction answers, as `extractCapped` does: the candidates cut, in order, what stays in `RXBUF`, and
whether the capacity was exceeded. -/
abbrev Cut := List (List Byte) × List Byte × Bool

/-- A candidate before the others cut. -/
def consFrame (frm : List Byte) (cut : Cut) : Cut := (frm :: cut.1, cut.2)

/-- The bytes of a chunk after the frame in progress `acc`, in the byte-serial form of R192 with R198. -/
def cutBytes (cap : Option Nat) : List Byte → List Byte → Cut
  | acc, [] => ([], acc, false)
  | acc, b :: rest =>
    if acc = [] ∧ b ≠ START then cutBytes cap acc rest
    else if cap.any (· ≤ acc.length) then ([], acc, true)
    else if b = END then consFrame (acc ++ [END]) (cutBytes cap [] rest)
    else cutBytes cap (acc ++ [b]) rest

variable {cap : Option Nat} {acc rest : List Byte} {b : Byte}

theorem cutBytes_discard (h : acc = []) (hb : b ≠ START) : cutBytes cap acc (b :: rest) = cutBytes cap acc rest :=
  if_pos ⟨h, hb⟩

theorem cutBytes_full (h : acc ≠ [] ∨ b = START) (hc : cap.any (· ≤ acc.length) = true) :
    cutBytes cap acc (b :: rest) = ([], acc, true) := by
  rw [cutBytes, if_neg (by tauto), if_pos hc]

theorem cutBytes_end (h : acc ≠ []) (hc : cap.any (· ≤ acc.length) = false) :
    cutBytes cap acc (END :: rest) = consFrame (acc ++ [END]) (cutBytes cap [] rest) := by
  rw [cutBytes, if_neg (by tauto), if_neg (by simp [hc]), if_pos rfl]

theorem cutBytes_append_byte (h : acc ≠ [] ∨ b = START) (hc : cap.any (· ≤ acc.length) = false) (hb : b ≠ END) :
    cutBytes cap acc (b :: rest) = cutBytes cap (acc ++ [b]) rest := by
  rw [cutBytes, if_neg (by tauto), if_neg (by simp [hc]), if_neg hb]

/-- What the first byte of a chunk does to the cut. -/
theorem cutBytes_cons_cases (cap : Option Nat) (acc : List Byte) (b : Byte) :
    (acc = [] ∧ b ≠ START) ∨
    ((acc ≠ [] ∨ b = START) ∧ cap.any (· ≤ acc.length) = true) ∨
    (acc ≠ [] ∧ b = END ∧ cap.any (· ≤ acc.length) = false) ∨
    ((acc ≠ [] ∨ b = START) ∧ b ≠ END ∧ cap.any (· ≤ acc.length) = false) := by
  by_cases h : acc = [] ∧ b ≠ START
  · exact .inl h
  · have ho : acc ≠ [] ∨ b = START := by tauto
    cases cap.any (· ≤ acc.length) with
    | true => exact .inr (.inl ⟨ho, rfl⟩)
    | false =>
      by_cases hb : b = END
      · exact .inr (.inr (.inl ⟨ho.resolve_right (by rw [hb]; decide), hb, rfl⟩))
      · exact .inr (.inr (.inr ⟨ho, hb, rfl⟩))

theorem lt_of_not_full (hc : cap.any (· ≤ acc.length) = false) : ∀ c, cap = some c → acc.length < c := by
  rintro c rfl
  simpa using hc

/-- Two chunks are cut one after the other, unless the first exceeds the capacity (R193, R198). -/
theorem cutBytes_append (cap : Option Nat) (acc a b : List Byte) :
    cutBytes cap acc (a ++ b) =
      if (cutBytes cap acc a).2.2 then cutBytes cap acc a
      else ((cutBytes cap acc a).1 ++ (cutBytes cap (cutBytes cap acc a).2.1 b).1,
        (cutBytes cap (cutBytes cap acc a).2.1 b).2) := by
  induction a generalizing acc with
  | nil => rfl
  | cons x a ih =>
    rw [List.cons_append]
    rcases cutBytes_cons_cases cap acc x with ⟨h, hx⟩ | ⟨h, hc⟩ | ⟨h, rfl, hc⟩ | ⟨h, hx, hc⟩
    · rw [cutBytes_discard h hx, cutBytes_discard h hx, ih]
    · rw [cutBytes_full h hc, cutBytes_full h hc]
      rfl
    · rw [cutBytes_end h hc, cutBytes_end h hc, ih]
      cases hfull : (cutBytes cap [] a).2.2 <;> simp [consFrame, hfull]
    · rw [cutBytes_append_byte h hc hx, cutBytes_append_byte h hc hx, ih]

/-! ### The whole-buffer form -/

/-- Bytes before a START are discarded (R187). -/
theorem extractCapped_discard (n : Nat) (hb : b ≠ START) :
    extractCapped cap (n + 1) (b :: rest) = extractCapped cap (n + 1) rest := by
  have hd : (b :: rest).dropWhile (· != START) = rest.dropWhile (· != START) :=
    List.dropWhile_cons_of_pos (by simpa using hb)
  rw [extractCapped, extractCapped, hd]

/-- The bytes of a buffer up to its first END, or all of them (R188). -/
def upToEnd (buf : List Byte) : List Byte := if END ∈ buf then buf.take (buf.idxOf END + 1) else buf

theorem upToEnd_of_not_mem {buf : List Byte} (h : END ∉ buf) : upToEnd buf = buf := if_neg h

theorem upToEnd_append_end (h : END ∉ acc) : upToEnd (acc ++ END :: rest) = acc ++ [END] := by
  simp [upToEnd, List.idxOf_append_of_notMem h, List.take_append]

/-- The first END of a buffer does not stand in its part without END. -/
theorem length_lt_upToEnd (h : END ∉ acc) (b : Byte) (rest : List Byte) :
    acc.length < (upToEnd (acc ++ b :: rest)).length := by
  unfold upToEnd
  split
  · rw [List.idxOf_append_of_notMem h, List.length_take, List.length_append, List.length_cons]
    omega
  · simp

theorem dropWhile_of_opened {buf : List Byte} (h : buf.head? = some START) : buf.dropWhile (· != START) = buf := by
  cases buf with
  | nil => rfl
  | cons x rest =>
    obtain rfl : x = START := by simpa using h
    exact List.dropWhile_cons_of_neg (by simp)

/-- The bytes up to the first END exceed the capacity (R198, R323). -/
theorem extractCapped_over (n : Nat) {buf : List Byte} {c : Nat} (h : buf.head? = some START)
    (hc : c < (upToEnd buf).length) : extractCapped (some c) (n + 1) buf = ([], buf.take c, true) := by
  have hf : (some c).filter (fun c => decide (c < (upToEnd buf).length)) = some c := by simpa using hc
  rw [extractCapped, dropWhile_of_opened h]
  unfold upToEnd at hf
  simp only [hf]

/-- The bytes up to the first END do not exceed the capacity (R186). -/
theorem extractCapped_within (n : Nat) {buf : List Byte} (h : buf.head? = some START)
    (hc : ∀ c, cap = some c → (upToEnd buf).length ≤ c) :
    extractCapped cap (n + 1) buf =
      if END ∈ buf then consFrame (upToEnd buf) (extractCapped cap n (buf.drop (upToEnd buf).length))
      else ([], buf, false) := by
  have hf : cap.filter (fun c => decide (c < (upToEnd buf).length)) = none := by
    cases cap with
    | none => rfl
    | some c => simpa using hc c rfl
  rw [extractCapped, dropWhile_of_opened h]
  unfold upToEnd at hf ⊢
  simp only [hf]
  rfl

theorem extractCapped_empty (n : Nat) : extractCapped cap (n + 1) [] = ([], [], false) := by
  cases cap <;> simp [extractCapped]

/-- The byte-serial form is the whole-buffer form (R192), while the frame in progress is within the capacity. -/
theorem cutBytes_eq_extractCapped (n : Nat) (bytes : List Byte) (h : InProgress acc)
    (hcap : ∀ c, cap = some c → acc.length ≤ c) (hn : (acc ++ bytes).length < n) :
    cutBytes cap acc bytes = extractCapped cap n (acc ++ bytes) := by
  induction bytes generalizing acc n with
  | nil =>
    obtain ⟨n, rfl⟩ : ∃ m, n = m + 1 := ⟨n - 1, by omega⟩
    rw [List.append_nil]
    rcases h with rfl | ⟨hstart, hend⟩
    · rw [extractCapped_empty, cutBytes]
    · rw [extractCapped_within n hstart (by rwa [upToEnd_of_not_mem hend]), if_neg hend, cutBytes]
  | cons b rest ih =>
    obtain ⟨n, rfl⟩ : ∃ m, n = m + 1 := ⟨n - 1, by omega⟩
    have hlen : rest.length < n := by
      rw [List.length_append, List.length_cons] at hn
      omega
    have hend : END ∉ acc := h.elim (fun he => by simp [he]) And.right
    have hstart (ho : acc ≠ [] ∨ b = START) : (acc ++ b :: rest).head? = some START := by
      rcases h with rfl | ⟨hs, -⟩
      · simpa using ho
      · simp [hs]
    rcases cutBytes_cons_cases cap acc b with ⟨rfl, hb⟩ | ⟨ho, hc⟩ | ⟨ho, rfl, hc⟩ | ⟨ho, hb, hc⟩
    · rw [cutBytes_discard rfl hb, ih (n + 1) (.inl rfl) hcap (Nat.lt_succ_of_lt hlen)]
      exact (extractCapped_discard n hb).symm
    · rw [cutBytes_full ho hc]
      obtain ⟨c, rfl, hle⟩ : ∃ c, cap = some c ∧ c ≤ acc.length := by simpa [Option.any_eq_true] using hc
      obtain rfl : c = acc.length := Nat.le_antisymm hle (hcap c rfl)
      rw [extractCapped_over n (hstart ho) (length_lt_upToEnd hend b rest), List.take_left]
    · have hwithin : ∀ c, cap = some c → (upToEnd (acc ++ END :: rest)).length ≤ c := by
        simpa [upToEnd_append_end hend] using lt_of_not_full hc
      have hrest : (acc ++ END :: rest).drop (acc ++ [END]).length = rest := by
        rw [List.append_cons acc END rest, List.drop_left]
      rw [cutBytes_end ho hc, ih n (.inl rfl) (fun _ _ => Nat.zero_le _) hlen,
        extractCapped_within n (hstart (.inl ho)) hwithin, if_pos (by simp), upToEnd_append_end hend, hrest]
      rfl
    · rw [cutBytes_append_byte ho hc hb, List.append_cons acc b rest]
      exact ih (n + 1) (h.append ho hb) (by simpa using lt_of_not_full hc) (by rwa [← List.append_cons])

/-! ### Without a capacity -/

/-- With `BUF_CAP` infinite the extraction is that of R186 and never overflows. -/
theorem extractCapped_none (n : Nat) (buf : List Byte) :
    extractCapped none n buf = ((extractSpec n buf).1, (extractSpec n buf).2, false) := by
  induction n generalizing buf with
  | zero => rfl
  | succ n ih =>
    rw [extractCapped, extractSpec]
    generalize buf.dropWhile (· != START) = opened
    by_cases he : END ∈ opened
    · have hk : opened.idxOf END + 1 ≤ opened.length := List.idxOf_lt_length_of_mem he
      simp [he, ih, Nat.min_eq_left hk]
    · simp [he]

end Sys2Proof.Machine
end

section
/-! ## `Ingest` of a whole chunk (R185, R193, R198) -/

namespace Sys2Proof.Machine

/-! ### The candidates of a cut, decoded -/

/-- The candidates cut, decoded in order; then the fatal fault, if the capacity was exceeded (R185, R323). -/
def decodeCut (cut : Cut) (s : State) : State :=
  let t := cut.1.foldl (fun s frm => decodeFrameSpec frm s) s
  if cut.2.2 then fatal .bufOverflow t else t

theorem decodeCut_consFrame (frm : List Byte) (cut : Cut) (s : State) :
    decodeCut (consFrame frm cut) s = decodeCut cut (decodeFrameSpec frm s) := rfl

variable {cut : Cut}

theorem decodeCut_of_room (h : cut.2.2 = false) (s : State) :
    decodeCut cut s = cut.1.foldl (fun s frm => decodeFrameSpec frm s) s := if_neg (by simp [h])

theorem decodeCut_append (h : cut.2.2 = false) (cut' : Cut) (s : State) :
    decodeCut (cut.1 ++ cut'.1, cut'.2) s = decodeCut cut' (decodeCut cut s) := by
  rw [decodeCut_of_room h, decodeCut, List.foldl_append]
  rfl

theorem decodeCut_withStreamOf (cut : Cut) (e s : State) :
    decodeCut cut (withStreamOf e s) = withStreamOf e (decodeCut cut s) := by
  have hfold : cut.1.foldl (fun s frm => decodeFrameSpec frm s) (withStreamOf e s) =
      withStreamOf e (cut.1.foldl (fun s frm => decodeFrameSpec frm s) s) :=
    List.foldl_hom _ fun s frm => decodeFrameSpec_withStreamOf frm e s
  simp only [decodeCut, hfold]
  split <;> rfl

theorem decodeCut_decodingShape (h : cut.2.2 = false) (s : State) : DecodingShape s (decodeCut cut s) := by
  rw [decodeCut_of_room h]
  exact foldl_decodingShape (fun s frm => decodeFrameSpec_decodingShape frm s) cut.1 s

/-- Decoding sets no fault; an overflow does (R198). -/
theorem decodeCut_faultReg (cut : Cut) (s : State) :
    (decodeCut cut s).faultReg = if cut.2.2 then .bufOverflow else s.faultReg := by
  cases h : cut.2.2 with
  | true => simp [decodeCut, h, fatal, FaultReg.cause]
  | false =>
    rw [decodeCut_decodingShape h]
    rfl

/-! ### The scan of a chunk -/

/-- The stream after the scan of a chunk, and the reply. -/
def scanned (e : State) (cut : Cut) : State :=
  { e with
    rxbuf := cut.2.1, chunk := [], phase := .idle
    replies := e.replies ++ [if cut.2.2 then .aborted else .done] }

theorem hasRoom_eq (s : State) : hasRoom s = !(s.params.bufCap.any (· ≤ s.rxbuf.length)) := by
  unfold hasRoom
  cases s.params.bufCap <;> simp [← decide_not]

/-- The extractor goes through a chunk byte by byte as `cutBytes` does, decoding each candidate as it is completed. -/
theorem runsTo_scanned (chunk : List Byte) (s e : State) (hp : e.phase = .scan) (hc : e.chunk = chunk) :
    RunsTo (withStreamOf e s) (withStreamOf (scanned e (cutBytes s.params.bufCap e.rxbuf chunk))
      (decodeCut (cutBytes s.params.bufCap e.rxbuf chunk) s)) := by
  induction chunk generalizing s e with
  | nil => exact .of_step (step_scan_nil hp hc)
  | cons b rest ih =>
    have hstep : step (withStreamOf e s) = exec (streamInstr b) (withStreamOf { e with chunk := rest } s) :=
      step_scan_cons hp hc
    have hroom : hasRoom (withStreamOf { e with chunk := rest } s) = !(s.params.bufCap.any (· ≤ e.rxbuf.length)) :=
      hasRoom_eq _
    rcases exec_streamInstr_cases b (withStreamOf { e with chunk := rest } s) with ⟨(h : e.rxbuf = []), hb, ex⟩ |
      ⟨(h : e.rxbuf ≠ [] ∨ b = START), hr, ex⟩ | ⟨(h : e.rxbuf ≠ [] ∨ b = START), hb, hr, ex⟩ |
      ⟨(h : e.rxbuf ≠ []), rfl, hr, ex⟩
    · rw [cutBytes_discard h hb]
      exact .cons (hstep.trans ex) (ih s { e with chunk := rest } hp rfl)
    · rw [cutBytes_full h (by simpa [hr] using hroom)]
      exact .of_step (hstep.trans ex)
    · rw [cutBytes_append_byte h (by simpa [hr] using hroom) hb]
      exact .cons (hstep.trans ex) (ih s { e with chunk := rest, rxbuf := e.rxbuf ++ [b] } hp rfl)
    · rw [cutBytes_end h (by simpa [hr] using hroom), decodeCut_consFrame]
      have hdecode := runsTo_decodeFrameSpec (e.rxbuf ++ [END]) (withStreamOf { e with chunk := rest, rxbuf := [] } s)
      rw [decodeFrameSpec_withStreamOf] at hdecode
      have hparams : (decodeFrameSpec (e.rxbuf ++ [END]) s).params = s.params := by
        rw [decodeFrameSpec_decodingShape]
      have hscan := ih (decodeFrameSpec (e.rxbuf ++ [END]) s) { e with chunk := rest, rxbuf := [], phase := .scan } rfl rfl
      rw [hparams] at hscan
      exact .cons (hstep.trans ex) (hdecode.trans hscan)

/-! ### The operation -/

/-- The state after an `Ingest` whose bytes were cut so, `rest` being queued behind it. -/
def ingested (cut : Cut) (now : Rat) (rest : List HostOp) (s : State) : State :=
  withStreamOf (scanned { s with hostq := rest } cut) (decodeCut cut { s with eng := .ready, now := now })

theorem runsTo_ingested {s : State} (hp : s.phase = .idle) (ht : s.crctab = crcTable) (he : s.eng ≠ .failed)
    (hf : s.faultReg = .none) (chunk : List Byte) (now : Rat) (rest : List HostOp) :
    RunsTo { s with hostq := .ingest chunk now :: rest }
      (ingested (cutBytes s.params.bufCap s.rxbuf chunk) now rest s) := by
  have hstep : step { s with hostq := .ingest chunk now :: rest } =
      .next { s with eng := .ready, chunk := chunk, now := now, phase := .scan, hostq := rest } := by
    rw [step_hostOp (by exact hp) rfl, hostOp_performed (.inl (by exact hf)), performOp,
      withEngine_sound (s := { s with hostq := rest }) _ ht he hf]
  exact .cons hstep
    (runsTo_scanned chunk { s with eng := .ready, now := now } { s with chunk := chunk, phase := .scan, hostq := rest }
      rfl rfl)

/-- The pseudocode's `Ingest` over the whole buffer is the byte-serial form. -/
theorem ingestSpec_eq {s : State} (hb : InProgress s.rxbuf)
    (hc : ∀ cap, s.params.bufCap = some cap → s.rxbuf.length ≤ cap) (chunk : List Byte) (now : Rat)
    (rest : List HostOp) : ingestSpec chunk now { s with eng := .ready, hostq := rest } =
      withStreamOf { s with hostq := rest, rxbuf := (cutBytes s.params.bufCap s.rxbuf chunk).2.1 }
        (decodeCut (cutBytes s.params.bufCap s.rxbuf chunk) { s with eng := .ready, now := now }) := by
  rw [← decodeCut_withStreamOf, cutBytes_eq_extractCapped _ chunk hb hc (Nat.lt_succ_self _)]
  rfl

/-- Settles O35: the run of the operation, its byte-serial cut read as the whole-buffer extraction. -/
theorem ingestRunsAsExtract : Obligations.IngestRunsAsExtract := by
  refine ⟨fun s chunk now rest hs hp hf hq => ?_, extractCapped_none⟩
  intro t
  have ht : t = _ := ingestSpec_eq hs.buffer hs.capacity chunk now rest
  have hfault : t.faultReg = if (cutBytes s.params.bufCap s.rxbuf chunk).2.2 then .bufOverflow else .none := by
    rw [← hf, ht]
    exact decodeCut_faultReg ..
  have hreply : (if t.faultReg = .none then Reply.done else .aborted) =
      if (cutBytes s.params.bufCap s.rxbuf chunk).2.2 then .aborted else .done := by
    rw [hfault]
    split <;> rfl
  have hrun := runsTo_ingested hp hs.table hs.engine.1 hf chunk now rest
  rw [← hq] at hrun
  rw [hreply, ht]
  exact hrun

/-! ### Two chunks -/

/-- While `FAULT` is set an `Ingest` is refused (R322). -/
theorem runsTo_refused {s : State} (hp : s.phase = .idle) (hf : s.faultReg ≠ .none) (chunk : List Byte) (now : Rat)
    (rest : List HostOp) : RunsTo { s with hostq := .ingest chunk now :: rest }
      { s with hostq := rest, replies := s.replies ++ [.refused] } := by
  refine .of_step ?_
  rw [step_hostOp (by exact hp) rfl, hostOp_refused (by exact hf) rfl]
  rfl

/-- An `Ingest` that did not overflow writes only what decoding may, besides the stream, the engine and `NOW`. -/
theorem ingested_of_room (h : cut.2.2 = false) (now : Rat) (rest : List HostOp) (s : State) :
    DecodingShape (withStreamOf (scanned { s with hostq := rest } cut) { s with eng := .ready, now := now })
      (ingested cut now rest s) := by
  rw [ingested, ← decodeCut_withStreamOf]
  exact decodeCut_decodingShape h _

theorem ingested_keeps (h : cut.2.2 = false) (now : Rat) (rest : List HostOp) (s : State) :
    (ingested cut now rest s).params = s.params ∧ (ingested cut now rest s).crctab = s.crctab ∧
      (ingested cut now rest s).eng = .ready ∧ (ingested cut now rest s).faultReg = s.faultReg := by
  rw [ingested_of_room h]
  exact ⟨rfl, rfl, rfl, rfl⟩

/-- Two chunks ingested one after the other leave what one chunk that is cut into the same candidates leaves, the
replies apart. -/
theorem ingested_ingested (h : cut.2.2 = false) (cut' : Cut) (now : Rat)
    (rest rest' : List HostOp) (s : State) :
    ingested cut' now rest' (ingested cut now rest s) =
      { ingested (cut.1 ++ cut'.1, cut'.2) now rest' s with
        replies := s.replies ++ [.done] ++ [if cut'.2.2 then .aborted else .done] } := by
  have hsame : { ingested cut now rest s with eng := .ready, now := now } = ingested cut now rest s := by
    rw [ingested_of_room h]
    rfl
  rw [ingested, hsame, ingested, decodeCut_withStreamOf, ← decodeCut_append h, scanned, scanned, h]
  rfl

/-- An overflow leaves the fatal fault (R198). -/
theorem ingested_faultReg_of_full (h : cut.2.2 = true) (now : Rat) (rest : List HostOp) (s : State) :
    (ingested cut now rest s).faultReg = .bufOverflow :=
  (decodeCut_faultReg ..).trans (if_pos h)

/-- Settles O37: a faulted block refuses every chunk; the capacity is exceeded in the first part, so that the second one
is refused; or the parts are cut one after the other. -/
theorem chunkingDoesNotMatter : Obligations.ChunkingDoesNotMatter := by
  intro s a b now hs hp hq
  by_cases hf : s.faultReg = .none
  · have hwhole := runsTo_ingested hp hs.table hs.engine.1 hf (a ++ b) now []
    have hfirst := runsTo_ingested hp hs.table hs.engine.1 hf a now [.ingest b now]
    rw [cutBytes_append] at hwhole
    generalize cutBytes s.params.bufCap s.rxbuf a = cut at hwhole hfirst
    cases hfull : cut.2.2 with
    | true =>
      rw [if_pos hfull] at hwhole
      have hfault := ingested_faultReg_of_full hfull now [.ingest b now] s
      have hsecond := runsTo_refused (s := ingested cut now [.ingest b now] s) rfl (by simp [hfault]) b now []
      exact ⟨ingested cut now [] s, _, _, hwhole, hfirst.trans hsecond, rfl, rfl⟩
    | false =>
      rw [if_neg (by simp [hfull])] at hwhole
      obtain ⟨hparams, htable, hready, hfault⟩ := ingested_keeps hfull now [.ingest b now] s
      have hsecond : RunsTo (ingested cut now [.ingest b now] s) _ :=
        runsTo_ingested rfl (htable.trans hs.table) (hready ▸ nofun) (hfault.trans hf) b now []
      rw [ingested_ingested hfull, hparams] at hsecond
      exact ⟨ingested _ now [] s, _, _, hwhole, hfirst.trans hsecond, rfl, rfl⟩
  · have hfirst := runsTo_refused hp hf a now [.ingest b now]
    have hsecond := runsTo_refused (s := { s with replies := s.replies ++ [.refused] }) hp hf b now []
    exact ⟨{ s with hostq := [] }, _, _, runsTo_refused hp hf (a ++ b) now [], hfirst.trans hsecond, hp, rfl⟩

end Sys2Proof.Machine
end

section
/-! ## The steps of `DecodeFrame` (R206 to R223) -/

namespace Sys2Proof.Machine

/-! ### The candidate unescaped, and the whole decode -/

/-- Settles O32: `runsTo_checking` with nothing unescaped yet and all of the candidate to be read. -/
theorem candidateIsUnescapedBeforeItIsChecked : Obligations.CandidateIsUnescapedBeforeItIsChecked :=
  fun s frm => runsTo_checking s frm [] frm

/-- Settles O33: `runsTo_decodeFrameSpec`. -/
theorem decodeFrameRunsAsThePseudocode : Obligations.DecodeFrameRunsAsThePseudocode :=
  fun s frm => runsTo_decodeFrameSpec frm s

/-! ### The checks in their order (R207 to R209, R324) -/

/-- The first byte is read with a default that is not START (R208). -/
theorem getD_zero_eq_start_iff (u : List Byte) : u.getD 0 0 = START ↔ u.head? = some START := by
  cases u with
  | nil => decide
  | cons b rest => simp

section
variable {tab : List U16} {u : List Byte}

theorem judgeFrame_tooShort (hl : u.length < 8) : judgeFrame tab u = some .tooShort := if_pos hl

theorem judgeFrame_badStart (hl : 8 ≤ u.length) (hs : u.head? ≠ some START) : judgeFrame tab u = some .badStart := by
  rw [judgeFrame, if_neg (Nat.not_lt.2 hl), if_pos (mt (getD_zero_eq_start_iff u).1 hs)]

theorem judgeFrame_crcMismatch (hl : 8 ≤ u.length) (hs : u.head? = some START)
    (hc : crc16 tab (zeroCrcField u) ≠ crcField u) : judgeFrame tab u = some .crcMismatch := by
  rw [judgeFrame, if_neg (Nat.not_lt.2 hl), if_neg (not_not.2 ((getD_zero_eq_start_iff u).2 hs)), if_pos hc]

theorem judgeFrame_pass (hl : 8 ≤ u.length) (hs : u.head? = some START)
    (hc : crc16 tab (zeroCrcField u) = crcField u) : judgeFrame tab u = none := by
  rw [judgeFrame, if_neg (Nat.not_lt.2 hl), if_neg (not_not.2 ((getD_zero_eq_start_iff u).2 hs)),
    if_neg (not_not.2 hc)]

end

/-- Settles O15: the cause of `judgeFrame` in each case, which `step_check_drop` drops the frame with. -/
theorem frameChecksDropInOrder : Obligations.FrameChecksDropInOrder := by
  intro s hp dropped
  exact ⟨fun hl => step_check_drop hp (judgeFrame_tooShort hl),
    fun hl hs => step_check_drop hp (judgeFrame_badStart hl hs),
    fun hl hs hc => step_check_drop hp (judgeFrame_crcMismatch hl hs hc)⟩

/-- Settles O16: the digest is compared with the stored one and nothing with the declared length, so the frame passes;
its CRC bytes are then zeroed in place. -/
theorem checkedFrameRunsItsType : Obligations.CheckedFrameRunsItsType := by
  intro s lenLo lenHi crcLo crcHi typeLo typeHi rest hp hu hrest hcrc
  have hj : judgeFrame s.crctab s.work.u = none := by
    rw [hu]
    refine judgeFrame_pass ?_ rfl hcrc
    have hpos := List.length_pos_iff.2 hrest
    simp only [List.length_cons]
    omega
  rw [step_check_pass hp hj, hu]
  rfl

/-- Settles O13: `exec_frameInstr` of each record type. -/
theorem recognisedFramesStartTheWalk : Obligations.RecognisedFramesStartTheWalk := fun s =>
  ⟨exec_frameInstr .rssi s, exec_frameInstr .rfsetup s, exec_frameInstr .statectl s, exec_frameInstr .settings s,
    exec_frameInstr .desc s, exec_frameInstr .passing s, exec_frameInstr .status s, exec_frameInstr .time s,
    exec_frameInstr .error s⟩

/-! ### The walk (R214 to R219, R222, R223) -/

/-- Settles O25: a default row's instruction is one `skip` with UNKNOWN_TAG, or does nothing. -/
theorem unknownAndIgnoredTags : Obligations.UnknownAndIgnoredTags := fun _ _ =>
  ⟨fun _ => rfl, fun _ => rfl, fun _ => rfl, fun _ => rfl, fun _ => rfl, fun _ => rfl, fun _ => rfl, fun _ => rfl,
    fun _ => rfl⟩

/-- Settles O29: `step_walk_end`. -/
theorem walkEndsWithOneOutcome : Obligations.WalkEndsWithOneOutcome := fun _ hp hl => step_walk_end hp hl

/-- Settles O30: with two bytes or more after tag and length the walk goes on, and the length decides which of
`step_walk_truncated` and `step_walk_field` applies. -/
theorem fieldIsCutOrTruncated : Obligations.FieldIsCutOrTruncated := by
  intro s tag len rest hp hq hrest
  have hl : 3 < s.work.p.length := by
    rw [hq, List.length_cons, List.length_cons]
    omega
  exact ⟨fun ht => step_walk_truncated hp hq hl ht, fun r hr ht => step_walk_field hp hr hq hl ht⟩

/-! ### The outcome and the log of a whole decode (R223, R320, R321) -/

/-- A log entry that skips a field of this record and tag (R220, R321). -/
def IsSkipOf (r : RecordType) (tag : Byte) (e : LogEntry) : Prop :=
  e.cause ∈ [Cause.unknownTag, .badWidth, .noSlot, .slotRange] ∧ e.rtype = some r.code ∧ e.tag = some tag

theorem FieldLogs.exists_skips {r : RecordType} {tag : Byte} {s t : State} (h : FieldLogs r tag s t) :
    ∃ skips, (∀ e ∈ skips, IsSkipOf r tag e) ∧ t.logq = s.logq ++ skips := by
  rcases h with h | ⟨c, hc, h⟩
  · exact ⟨[], by simp, by simp [h]⟩
  · exact ⟨[⟨c, some r.code, some tag⟩], by simpa [IsSkipOf] using hc, h⟩

theorem dispatchField_logs (r : RecordType) (s : State) (f : Byte × List Byte) :
    FieldLogs r f.1 s (dispatchField r s f) :=
  exec_field_logs (fieldInstr_field r f.1 f.2) (exec_fieldInstr r s f)

theorem FieldShape.evq {s t : State} (h : FieldShape s t) : t.evq = s.evq := by
  rcases h with ⟨e, rfl⟩ | h
  · rfl
  · rw [h]

@[simp] theorem dispatchField_evq (r : RecordType) (s : State) (f : Byte × List Byte) :
    (dispatchField r s f).evq = s.evq := by
  obtain ⟨t, ht, hshape⟩ := exec_field_shape (i := fieldInstr r f.1 f.2) (by rw [fieldInstr_field]; rfl) s
  cases (exec_fieldInstr r s f).symm.trans ht
  exact hshape.evq

theorem foldl_dispatchField_evq (r : RecordType) (fs : List (Byte × List Byte)) (s : State) :
    (fs.foldl (dispatchField r) s).evq = s.evq := by
  induction fs generalizing s with
  | nil => rfl
  | cons f fs ih => rw [List.foldl_cons, ih, dispatchField_evq]

/-- The fields of a walk append skip entries, each for one of their tags. -/
theorem foldl_dispatchField_logq (r : RecordType) (fs : List (Byte × List Byte)) (s : State) :
    ∃ skips, (∀ e ∈ skips, ∃ f ∈ fs, IsSkipOf r f.1 e) ∧ (fs.foldl (dispatchField r) s).logq = s.logq ++ skips := by
  induction fs generalizing s with
  | nil => exact ⟨[], by simp, by simp⟩
  | cons f fs ih =>
    obtain ⟨first, hfirst, hlogq⟩ := (dispatchField_logs r s f).exists_skips
    obtain ⟨later, hlater, hlogq'⟩ := ih (dispatchField r s f)
    refine ⟨first ++ later, fun e he => ?_, ?_⟩
    · rcases List.mem_append.1 he with he | he
      · exact ⟨f, List.mem_cons_self, hfirst e he⟩
      · obtain ⟨g, hg, hskip⟩ := hlater e he
        exact ⟨g, List.mem_cons_of_mem f hg, hskip⟩
    · rw [List.foldl_cons, hlogq', hlogq, List.append_assoc]

section
variable (r : RecordType) (code : U16) (fields : List (Byte × List Byte) × Option Byte) (s : State)

theorem walkFields_dev : (walkFields r code fields s).dev = (fields.1.foldl (dispatchField r) s).dev := by
  unfold walkFields
  cases fields.2 <;> rfl

/-- A truncated field drops the frame: no outcome, one log entry more (R216, R320). -/
theorem walkFields_truncated {tag : Byte} (h : fields.2 = some tag) :
    (walkFields r code fields s).evq = s.evq ∧ (walkFields r code fields s).logq =
      (fields.1.foldl (dispatchField r) s).logq ++ [⟨.truncatedTlv, some code, some tag⟩] := by
  simp only [walkFields, h]
  exact ⟨foldl_dispatchField_evq r fields.1 s, rfl⟩

/-- A walk to the end emits one outcome and logs nothing more (R223). -/
theorem walkFields_whole (h : fields.2 = none) :
    (walkFields r code fields s).evq = s.evq ++ [⟨code, (fields.1.foldl (dispatchField r) s).work.curslot,
      (fields.1.foldl (dispatchField r) s).work.lastrec⟩] ∧
    (walkFields r code fields s).logq = (fields.1.foldl (dispatchField r) s).logq := by
  simp only [walkFields, h, foldl_dispatchField_evq, and_self]

end

/-- The frame was dropped: outcomes and registers as before, one log entry more (R320). -/
def DroppedWith (e : LogEntry) (s t : State) : Prop := t.evq = s.evq ∧ t.dev = s.dev ∧ t.logq = s.logq ++ [e]

theorem droppedWith_of_judged {frm : List Byte} {s : State} {c : Cause}
    (hj : judgeFrame s.crctab (unescape frm) = some c) : DroppedWith ⟨c, none, none⟩ s (decodeFrameSpec frm s) := by
  rw [decodeFrameSpec_dropped hj]
  exact ⟨rfl, rfl, rfl⟩

theorem droppedWith_of_unknown {frm : List Byte} {s : State} (hj : judgeFrame s.crctab (unescape frm) = none)
    (hr : frameType (unescape frm) ∉ recognisedCodes) :
    DroppedWith ⟨.unknownType, some (frameType (unescape frm)), none⟩ s (decodeFrameSpec frm s) := by
  rw [decodeFrameSpec_unknown hj (Laws.ofCode_none hr)]
  exact ⟨rfl, rfl, rfl⟩

/-- Settles O34: a frame that fails a check or whose type is none of the nine is dropped; the log of any other is that
of its fields, and `walkFields` says how the walk ends. -/
theorem oneOutcomePerAcceptedFrame : Obligations.OneOutcomePerAcceptedFrame := by
  intro s frm u d code crcGood dropped
  refine ⟨fun hl => droppedWith_of_judged (judgeFrame_tooShort hl),
    fun hl hs => droppedWith_of_judged (judgeFrame_badStart hl hs),
    fun hl hs hc => droppedWith_of_judged (judgeFrame_crcMismatch hl hs hc),
    fun hl hs hc hr => droppedWith_of_unknown (judgeFrame_pass hl hs hc) hr, ?_⟩
  intro hl hs hc r hr fields t
  have hd : d = walkFields r code fields { s with work := Work.empty } :=
    decodeFrameSpec_recognised (judgeFrame_pass hl hs hc) ((congrArg _ hr).trans (Laws.ofCode_code r))
  obtain ⟨skips, hskips, hlogq⟩ : ∃ skips, (∀ e ∈ skips, ∃ f ∈ fields.1, IsSkipOf r f.1 e) ∧
      t.logq = s.logq ++ skips := foldl_dispatchField_logq r fields.1 { s with work := Work.empty }
  rw [hd, walkFields_dev]
  refine ⟨rfl, skips, fun e he => ?_, fun tag htag => ?_, fun hwhole => ?_⟩
  · obtain ⟨f, hf, hcause, hrtype, htag⟩ := hskips e he
    exact ⟨hcause, hrtype.trans (congrArg some hr.symm), f, hf, htag⟩
  · rw [← hlogq]
    exact walkFields_truncated r code fields _ htag
  · rw [← hlogq]
    exact walkFields_whole r code fields _ hwhole

end Sys2Proof.Machine
end

section
/-! ## Operands, slots and the host's views (R36, R43, R47, R224 to R227, R294) -/

namespace Sys2Proof.Machine

/-! ### Operands (R225, R226) -/

/-- A byte below others is the low digit to base 256 (R15). -/
theorem toNat_append_byte {w : Nat} (hi : BitVec w) (lo : Byte) : (hi ++ lo).toNat = lo.toNat + 256 * hi.toNat := by
  rw [BitVec.toNat_append, ← Nat.shiftLeft_add_eq_or_of_lt lo.isLt, Nat.shiftLeft_eq]
  omega

/-- At an admitted width the operand is the number that the bytes are, zero-extended. -/
theorem uintVal_eq_some {val : List Byte} {w : Nat} {x : BitVec w} (hwidth : val.length ∈ uintWidths)
    (hx : x.toNat = uintLE val) : uintVal val = some (x.zeroExtend 64) := by
  rw [uintVal, if_pos (List.contains_iff_mem.2 hwidth), ← hx, BitVec.ofNat_toNat]

theorem uintVal_eq_none {val : List Byte} (hwidth : val.length ∉ uintWidths) : uintVal val = none :=
  if_neg (mt List.contains_iff_mem.1 hwidth)

theorem f32Val_eq_some {val : List Byte} {x : U32} (hwidth : val.length = 4) (hx : x.toNat = uintLE val) :
    f32Val val = some x := by
  rw [f32Val, if_pos hwidth, ← hx, BitVec.ofNat_toNat, BitVec.setWidth_eq]

/-- Settles O5: appended bytes are the little-endian number, digit by digit. -/
theorem operandsByKindAndWidth : Obligations.OperandsByKindAndWidth := by
  refine ⟨fun a => ?_, fun a b => ?_, fun a b c d => ?_, fun a b c d e f g h => ?_, fun val h1 h2 h4 h8 => ?_,
    fun a b c d => ?_, fun val h4 => if_neg h4⟩
  · exact uintVal_eq_some (by simp [uintWidths]) (by simp [uintLE])
  · exact uintVal_eq_some (by simp [uintWidths]) (by simp [uintLE, toNat_append_byte])
  · exact uintVal_eq_some (by simp [uintWidths]) (by simp [uintLE, toNat_append_byte])
  · rw [← BitVec.setWidth_eq (h ++ g ++ f ++ e ++ d ++ c ++ b ++ a)]
    exact uintVal_eq_some (by simp [uintWidths]) (by simp [uintLE, toNat_append_byte])
  · exact uintVal_eq_none (by simp [uintWidths, h1, h2, h4, h8])
  · exact f32Val_eq_some rfl (by simp [uintLE, toNat_append_byte])

/-! ### Slots (R227, R294) -/

/-- The clamp at 0 is the subtraction of naturals (R227). -/
theorem slotFromWire_eq (w : U64) : slotFromWire w = w.toNat - 1 := by
  unfold slotFromWire
  split <;> omega

/-- Settles O6: `slotFromWire_eq`, and the wire index fits its 64 bits. -/
theorem slotConversion : Obligations.SlotConversion := by
  refine ⟨rfl, rfl, fun w _ => slotFromWire_eq w, fun s => rfl, fun s hs => ?_, fun w hw => ?_, rfl⟩
  · rw [slotFromWire_eq, BitVec.toNat_ofNat, wireSlot, Nat.mod_eq_of_lt hs, Nat.add_sub_cancel]
  · rw [slotFromWire_eq, wireSlot, Nat.sub_add_cancel hw]

/-! ### What the host is told (R36, R43, R47, R224) -/

theorem xst_eq_hunt_iff (s : State) : xst s = .hunt ↔ s.rxbuf = [] := by
  by_cases h : s.rxbuf = [] <;> simp [xst, h]

theorem enabledView_of_written {d : DeviceModel} {k : Nat} {v : U64} (h : slotGet d.rfEnabled k = some v) :
    enabledView d k = some (v != 0) := by
  rw [enabledView, h]

/-- The battery voltage times 1000 is the register again: the division is exact (R47). -/
theorem batteryVolts_mul_thousand {d : DeviceModel} {mv : U64} (h : d.battMv = some mv) :
    (batteryVolts d).map (· * 1000) = some (mv.toNat : Rat) := by
  have hvolts : (mv.toNat : Rat) / (MV_PER_VOLT : Rat) * 1000 = mv.toNat := div_mul_cancel₀ _ (by decide)
  rw [batteryVolts, h, Option.map_some, hvolts]

theorem notificationOf_noOp {code : U16} (h : code ∈ [0xDA04#16, 0xDA08#16, 0xFFFF#16]) (slot : Option Nat)
    (record : Option PassingRecord) : notificationOf ⟨code, slot, record⟩ = .noOp := by
  simp only [List.mem_cons, List.not_mem_nil, or_false] at h
  rcases h with rfl | rfl | rfl <;> rfl

/-- Settles O52: each code selects its row of R224; the views are the lemmas above. -/
theorem notificationsAndDerivedViews : Obligations.NotificationsAndDerivedViews := by
  refine ⟨fun _ _ => rfl, fun _ _ => rfl, fun _ _ => rfl, fun _ _ => rfl, fun _ _ => rfl, fun _ => rfl, fun _ _ => rfl,
    fun code slot record h => notificationOf_noOp h slot record, xst_eq_hunt_iff, fun d k v h => ?_,
    fun d mv h => batteryVolts_mul_thousand h⟩
  rw [enabledView_of_written h]
  simp

end Sys2Proof.Machine
end

section
/-! ## The gate state (R12, R252) and the fields of the RSSI, RF-Setup, State-Control and Settings records (R231 to R249) -/

namespace Sys2Proof.Machine

/-! ### What a field instruction does, by its operand and its slot (R225, R226, R228) -/

section
variable {r : RecordType} {tag : Byte} {val : List Byte} {s : State}

theorem withUInt_of_some {v : U64} (h : uintVal val = some v) (k : U64 → State → State) :
    withUInt r tag val k s = k v s := by
  rw [withUInt, h]

theorem withUInt_of_none (h : uintVal val = none) (k : U64 → State → State) :
    withUInt r tag val k s = skip .badWidth r tag s := by
  rw [withUInt, h]

theorem withF32_of_some {v : U32} (h : f32Val val = some v) (k : U32 → State → State) :
    withF32 r tag val k s = k v s := by
  rw [withF32, h]

theorem withF32_of_none (h : f32Val val = none) (k : U32 → State → State) :
    withF32 r tag val k s = skip .badWidth r tag s := by
  rw [withF32, h]

variable {slot : Nat} (w : Nat → DeviceModel → DeviceModel)

theorem slotWrite_noSlot (h : s.work.curslot = none) : slotWrite r tag w s = skip .noSlot r tag s := by
  rw [slotWrite, h]

theorem slotWrite_beyond (h : s.work.curslot = some slot) (hs : s.params.maxSlots ≤ slot) :
    slotWrite r tag w s = skip .slotRange r tag s := by
  simp only [slotWrite, h, if_pos hs]

theorem slotWrite_below (h : s.work.curslot = some slot) (hs : slot < s.params.maxSlots) :
    slotWrite r tag w s = { s with dev := w slot s.dev } := by
  simp only [slotWrite, h, if_neg (Nat.not_le.2 hs)]

end

theorem slotGet_slotSet {α : Type} (f : SlotFile α) (slot : Nat) (v : α) (k : Nat) :
    slotGet (slotSet f slot v) k = if k = slot then some v else slotGet f k := by
  split
  · next h => rw [h, slotGet_slotSet_same]
  · next h => exact slotGet_slotSet_other f v h

section
variable {field : List Byte → Instr} {r : RecordType} {tag : Byte}

theorem intFieldDoes_of_withUInt {effect : U64 → State → State}
    (h : ∀ val s, exec (field val) s = .next (withUInt r tag val effect s)) :
    IntFieldDoes field r.code tag effect := by
  refine ⟨fun s val v hv => ?_, fun s val hv => ?_⟩
  · rw [h, withUInt_of_some hv]
  · rw [h, withUInt_of_none hv]
    rfl

/-- A field is per slot when it skips without an operand, and with one is the guarded write of its file. -/
theorem slotFieldDoes_of_slotWrite {α : Type} {operand : List Byte → Option α} {file : DeviceModel → SlotFile α}
    {update : SlotFile α → DeviceModel → DeviceModel}
    (hskip : ∀ s val, operand val = none → exec (field val) s = .next (skip .badWidth r tag s))
    (hwrite : ∀ s val v, operand val = some v → exec (field val) s =
      .next (slotWrite r tag (fun slot d => update (slotSet (file d) slot v) d) s)) :
    SlotFieldDoes field r.code tag operand file update := by
  refine ⟨hskip, fun s val v hv hcur => ?_, fun s val v slot hv hcur hs => ?_, fun s val v slot hv hcur hs => ?_⟩
  · rw [hwrite s val v hv, slotWrite_noSlot _ hcur]
    rfl
  · rw [hwrite s val v hv, slotWrite_beyond _ hcur hs]
    rfl
  · exact ⟨slotSet (file s.dev) slot v, slotGet_slotSet _ slot v, by rw [hwrite s val v hv, slotWrite_below _ hcur hs]⟩

theorem slotFieldDoes_of_withUInt {file : DeviceModel → SlotFile U64}
    {update : SlotFile U64 → DeviceModel → DeviceModel}
    (h : ∀ val s, exec (field val) s = .next (withUInt r tag val
      (fun v => slotWrite r tag fun slot d => update (slotSet (file d) slot v) d) s)) :
    SlotFieldDoes field r.code tag uintVal file update :=
  slotFieldDoes_of_slotWrite (fun s val hv => by rw [h, withUInt_of_none hv])
    fun s val v hv => by rw [h, withUInt_of_some hv]

theorem slotFieldDoes_of_withF32 {file : DeviceModel → SlotFile U32}
    {update : SlotFile U32 → DeviceModel → DeviceModel}
    (h : ∀ val s, exec (field val) s = .next (withF32 r tag val
      (fun v => slotWrite r tag fun slot d => update (slotSet (file d) slot v) d) s)) :
    SlotFieldDoes field r.code tag f32Val file update :=
  slotFieldDoes_of_slotWrite (fun s val hv => by rw [h, withF32_of_none hv])
    fun s val v hv => by rw [h, withF32_of_some hv]

end

/-! ### The gate state (R246, R252, R275) -/

/-- The check of R12 is injectivity of the map: two states are the same or stand in one of its six inequalities. -/
theorem gateCode_injective {c : GateCodes} (h : c.wf = true) : Function.Injective c.code := by
  simp only [GateCodes.wf, Bool.and_eq_true, bne_iff_ne, ne_eq] at h
  obtain ⟨⟨⟨⟨⟨hia, hic⟩, his⟩, hac⟩, has⟩, hcs⟩ := h
  intro g g' hg
  cases g <;> cases g' <;> simp_all [GateCodes.code]

/-- `GateDecode` answers a state with that code, or idle when no state has it (R252). -/
theorem gateDecode_cases (c : GateCodes) (v : U64) :
    (c.code (gateDecode c v)).toNat = v.toNat ∨
    ((∀ g, (c.code g).toNat ≠ v.toNat) ∧ gateDecode c v = .idle) := by
  unfold gateDecode
  split_ifs with hi ha hc hs
  · exact .inl hi
  · exact .inl ha
  · exact .inl hc
  · exact .inl hs
  · refine .inr ⟨fun g => ?_, rfl⟩
    cases g with
    | idle => exact hi
    | active => exact ha
    | crashed => exact hc
    | shutdown => exact hs

theorem gateDecode_of_code {c : GateCodes} (hc : Function.Injective c.code) {g : Gate} {v : U64}
    (hv : v.toNat = (c.code g).toNat) : gateDecode c v = g := by
  rcases gateDecode_cases c v with h | ⟨h, -⟩
  · exact hc (BitVec.eq_of_toNat_eq (h.trans hv))
  · exact absurd hv.symm (h g)

theorem gateDecode_of_no_code {c : GateCodes} {v : U64} (hv : ∀ g, (c.code g).toNat ≠ v.toNat) :
    gateDecode c v = .idle := by
  rcases gateDecode_cases c v with h | ⟨-, h⟩
  · exact absurd h (hv _)
  · exact h

theorem statectlGate_does : IntFieldDoes .statectlGate RecordType.statectl.code 0x20#8 gateWrite :=
  intFieldDoes_of_withUInt fun _ _ => rfl

theorem statusGate_does : IntFieldDoes .statusGate RecordType.status.code 0x23#8 gateWrite :=
  intFieldDoes_of_withUInt fun _ _ => rfl

/-- Settles O7: the cases of `GateDecode`, the map being injective, and `gateWrite`, which both fields do. -/
theorem gateDecodeInvertsTheCodeMap : Obligations.GateDecodeInvertsTheCodeMap := by
  intro p hp
  obtain ⟨hgate, -⟩ := Bool.and_eq_true_iff.1 hp
  exact ⟨fun g v hv => gateDecode_of_code (gateCode_injective hgate) hv, fun v hv => gateDecode_of_no_code hv,
    fun s val v hv => ⟨⟨_, statectlGate_does.1 s val v hv, rfl⟩, ⟨_, statusGate_does.1 s val v hv, rfl⟩⟩⟩

/-! ### The records -/

/-- Settles O17: each instruction is the guarded operation its kind of field asks for, or one skip. -/
theorem rssiFieldEffects : Obligations.RssiFieldEffects :=
  ⟨intFieldDoes_of_withUInt (r := .rssi) fun _ _ => rfl, slotFieldDoes_of_withF32 (r := .rssi) fun _ _ => rfl,
    slotFieldDoes_of_withF32 (r := .rssi) fun _ _ => rfl, slotFieldDoes_of_withF32 (r := .rssi) fun _ _ => rfl,
    fun _ _ => rfl, fun _ _ => rfl⟩

/-- Settles O18: five integer files and the threshold's pattern, all by the guarded write. -/
theorem rfSetupFieldEffects : Obligations.RfSetupFieldEffects :=
  ⟨intFieldDoes_of_withUInt (r := .rfsetup) fun _ _ => rfl, slotFieldDoes_of_withUInt (r := .rfsetup) fun _ _ => rfl,
    slotFieldDoes_of_withUInt (r := .rfsetup) fun _ _ => rfl, slotFieldDoes_of_withUInt (r := .rfsetup) fun _ _ => rfl,
    slotFieldDoes_of_withF32 (r := .rfsetup) fun _ _ => rfl, slotFieldDoes_of_withUInt (r := .rfsetup) fun _ _ => rfl,
    slotFieldDoes_of_withUInt (r := .rfsetup) fun _ _ => rfl⟩

/-- Settles O19: both gate fields do `gateWrite`; `MIN_LAP_TIME` is one integer write, the other Settings field a skip. -/
theorem gateAndSettingsFieldEffects : Obligations.GateAndSettingsFieldEffects :=
  ⟨statectlGate_does, statusGate_does, fun _ _ => rfl, intFieldDoes_of_withUInt (r := .settings) fun _ _ => rfl⟩

end Sys2Proof.Machine
end

section
/-! ## The fields of the Passing, Status and Time records (R262 to R282) and the order of a commit (R268, R361) -/

namespace Sys2Proof.Machine

/-- The effect of a field may be written in any equal form. -/
theorem IntFieldDoes.congr {field : List Byte → Instr} {code : U16} {tag : Byte} {effect effect' : U64 → State → State}
    (h : IntFieldDoes field code tag effect) (heq : ∀ v s, effect v s = effect' v s) :
    IntFieldDoes field code tag effect' := by
  rwa [← funext fun v => funext (heq v)]

/-! ### The Passing record (R262 to R269) -/

/-- The local time is the device time moved by the correlation, where there is one (R269, R282). -/
theorem localTime_eq_map (s : State) (v : U64) :
    localTime s v = s.dev.rtcLocalSeconds.map (· + (v.toNat : Rat) / s.params.rtcTicksPerSecond) := by
  cases h : s.dev.rtcLocalSeconds with
  | none => rw [localTime, h, Option.map_none]
  | some l => rw [localTime, h, Option.map_some, rtcSeconds]

theorem passingSlot_does : IntFieldDoes .passingSlot RecordType.passing.code 0x01#8 fun v s =>
    setCurslot (slotFromWire v) (pbWrite (fun pb => { pb with pilotId := some (slotFromWire v) }) s) :=
  intFieldDoes_of_withUInt fun _ _ => rfl

theorem passingRtc_does : IntFieldDoes .passingRtc RecordType.passing.code 0x02#8 commitPassing :=
  intFieldDoes_of_withUInt fun _ _ => rfl

/-- Settles O21: `PASSING.SLOT` writes the builder and `CURSLOT`, each other field one entry of the builder. -/
theorem passingBuilderFieldEffects : Obligations.PassingBuilderFieldEffects :=
  ⟨passingSlot_does, intFieldDoes_of_withUInt (r := .passing) fun _ _ => rfl,
    intFieldDoes_of_withUInt (r := .passing) fun _ _ => rfl, intFieldDoes_of_withUInt (r := .passing) fun _ _ => rfl,
    intFieldDoes_of_withUInt (r := .passing) fun _ _ => rfl⟩

/-- Settles O22: the field does `commitPassing`, whose local time is `localTime_eq_map`. -/
theorem passingRtcCommitsTheRecord : Obligations.PassingRtcCommitsTheRecord := by
  refine passingRtc_does.congr fun v s => ?_
  rw [commitPassing, localTime_eq_map]
  rfl

/-! ### The order of a commit (R268, R361) -/

/-- An integer field with an admitted operand is dispatched to its effect (R218, R225). -/
theorem IntFieldDoes.dispatchField_eq {field : List Byte → Instr} {code : U16} {tag : Byte}
    {effect : U64 → State → State} (h : IntFieldDoes field code tag effect) {r : RecordType} {val : List Byte} {v : U64}
    (hfield : fieldInstr r tag val = field val) (hv : uintVal val = some v) (s : State) :
    dispatchField r s (tag, val) = effect v s := by
  rw [dispatchField, hfield, h.1 s val v hv]

/-- Settles O24: each order of `PASSING.SLOT` and the commit is their effects one after the other. The commit copies the
builder as it stands, so the record has the pilot id only if that field came first. -/
theorem passingCommitDependsOnFieldOrder : Obligations.PassingCommitDependsOnFieldOrder := by
  intro s slotVal rtcVal w v hw hv hpb hlocal
  constructor
  · rw [passingSlot_does.dispatchField_eq rfl hw, passingRtc_does.dispatchField_eq rfl hv]
    simp [localTime_eq_map, hpb, hlocal]
  · rw [passingRtc_does.dispatchField_eq rfl hv, passingSlot_does.dispatchField_eq rfl hw]
    simp [localTime_eq_map, hpb, hlocal]

/-! ### The Status record (R271 to R276) -/

/-- Settles O20: the slot, three integer registers and the guarded write of `RSSI_LAST`. -/
theorem statusFieldEffects : Obligations.StatusFieldEffects :=
  ⟨intFieldDoes_of_withUInt (r := .status) fun _ _ => rfl, intFieldDoes_of_withUInt (r := .status) fun _ _ => rfl,
    intFieldDoes_of_withUInt (r := .status) fun _ _ => rfl, slotFieldDoes_of_withF32 (r := .status) fun _ _ => rfl,
    intFieldDoes_of_withUInt (r := .status) fun _ _ => rfl⟩

/-! ### The Time record (R278 to R282) -/

/-- Half the round trip before its end is its midpoint (R281). -/
theorem sub_half_roundTrip (now t0 : Rat) : now - (now - t0) * mkRat 1 2 = (now + t0) / 2 := by
  rw [Rat.mkRat_eq_div]
  ring

theorem timeRtc_does : IntFieldDoes .timeRtc RecordType.time.code 0x02#8
    fun v s => correlate v (devWrite (fun d => { d with rtcTime := some v }) s) :=
  intFieldDoes_of_withUInt fun _ _ => rfl

/-- Settles O23, by the cases of `correlate`: with a request pending it is the midpoint form; with none pending nothing
is left to clear. -/
theorem timeFieldEffects : Obligations.TimeFieldEffects := by
  refine ⟨timeRtc_does.congr fun v s => ?_, intFieldDoes_of_withUInt (r := .time) fun _ _ => rfl⟩
  rcases correlate_cases v (devWrite (fun d => { d with rtcTime := some v }) s) with ⟨hreq, e⟩ | ⟨t0, hreq, e⟩
  · rw [devWrite_dev] at hreq
    rw [e, hreq]
    exact congrArg (fun q => { s with dev := { s.dev with rtcTime := some v, rtcReqAt := q } }) hreq
  · rw [devWrite_dev] at hreq
    rw [e, hreq, sub_half_roundTrip]
    rfl

end Sys2Proof.Machine
end

section
/-! ## The field encoders (R15, R291 to R293) -/

namespace Sys2Proof.Machine

/-! ### Bytes of a number, least significant first (R15) -/

@[simp] theorem length_leBytes (v w : Nat) : (leBytes v w).length = w := by
  induction w generalizing v with
  | zero => rfl
  | succ w ih => exact congrArg Nat.succ (ih (v / 256))

/-- The bytes of a number that fits them are that number again. -/
theorem uintLE_leBytes {v w : Nat} (hv : v < 2 ^ (8 * w)) : uintLE (leBytes v w) = v := by
  induction w generalizing v with
  | zero => exact (Nat.lt_one_iff.1 hv).symm
  | succ w ih =>
    have hhigh : v / 256 < 2 ^ (8 * w) := Nat.div_lt_of_lt_mul (by rwa [Nat.mul_succ, Nat.add_comm, Nat.pow_add] at hv)
    rw [leBytes, uintLE, ih hhigh, BitVec.toNat_ofNat]
    exact Nat.mod_add_div v 256

/-- The number that bytes are has those bytes. -/
theorem leBytes_uintLE (bytes : List Byte) : leBytes (uintLE bytes) bytes.length = bytes := by
  induction bytes with
  | nil => rfl
  | cons b bytes ih =>
    have hlow : BitVec.ofNat 8 (b.toNat + 256 * uintLE bytes) = b := by
      refine BitVec.eq_of_toNat_eq ?_
      rw [BitVec.toNat_ofNat]
      omega
    have hhigh : (b.toNat + 256 * uintLE bytes) / 256 = uintLE bytes := by omega
    rw [List.length_cons, uintLE, leBytes, hlow, hhigh, ih]

/-! ### `TlvInt` (R291) -/

section
variable {tag : Byte} {w v : Nat}

theorem tlvInt_of_fits (hw : w ∈ uintWidths) (hv : v < 2 ^ (8 * w)) :
    tlvInt tag w v = some (tag :: BitVec.ofNat 8 w :: leBytes v w) :=
  if_pos (by simp [hw, hv])

theorem tlvInt_refused (h : w ∉ uintWidths ∨ 2 ^ (8 * w) ≤ v) : tlvInt tag w v = none :=
  if_neg (by simpa [imp_iff_not_or] using h)

/-- What `TlvInt` encodes fits its width, which is admitted. -/
theorem fits_of_tlvInt {bytes : List Byte} (h : tlvInt tag w v = some bytes) : w ∈ uintWidths ∧ v < 2 ^ (8 * w) := by
  by_contra hn
  have hrefused : w ∉ uintWidths ∨ 2 ^ (8 * w) ≤ v := by rwa [not_and_or, Nat.not_lt] at hn
  rw [tlvInt_refused hrefused] at h
  cases h

end

theorem valueFits_of_width {val : List Byte} (hw : val.length ∈ uintWidths) : valueFits val = true :=
  (by decide : ∀ w ∈ uintWidths, decide (w ≤ 255) = true) _ hw

theorem uintVal_leBytes {w v : Nat} (hw : w ∈ uintWidths) (hv : v < 2 ^ (8 * w)) :
    uintVal (leBytes v w) = some (BitVec.ofNat 64 v) := by
  rw [uintVal, length_leBytes, if_pos (List.contains_iff_mem.2 hw), uintLE_leBytes hv]

/-- Settles O8: the encoding is the TLV field of the value's bytes, whose operand is the value. -/
theorem encodedIntegersReadBack : Obligations.EncodedIntegersReadBack := by
  intro r tag w v bytes rest h
  obtain ⟨hw, hv⟩ := fits_of_tlvInt h
  have hbytes : bytes = tlvBytes tag (leBytes v w) := by
    rw [tlvInt_of_fits hw hv] at h
    rw [tlvBytes, length_leBytes]
    exact (Option.some.inj h).symm
  have hfits : valueFits (leBytes v w) = true := valueFits_of_width (by rwa [length_leBytes])
  exact ⟨leBytes v w, hbytes ▸ Laws.decode_tlvBytes r tag _ rest hfits, uintVal_leBytes hw hv⟩

/-- The pattern of four bytes is encoded as those bytes (R292). -/
theorem leBytes_append_four (a b c d : Byte) : leBytes (d ++ c ++ b ++ a).toNat 4 = [a, b, c, d] := by
  have hnum : (d ++ c ++ b ++ a).toNat = uintLE [a, b, c, d] := by simp [uintLE, toNat_append_byte]
  rw [hnum]
  exact leBytes_uintLE [a, b, c, d]

/-- Settles O9: `TlvInt` by its two cases, the pattern by its bytes, `TlvRaw` by its length test. -/
theorem fieldEncodersProduceTheirBytes : Obligations.FieldEncodersProduceTheirBytes := by
  refine ⟨fun tag w v hw hv => ?_, fun tag w v h => tlvInt_refused h, fun tag a b c d => ?_,
    fun tag bytes h => if_pos h, fun tag bytes h => if_neg (Nat.not_le.2 h)⟩
  · exact ⟨leBytes v w, tlvInt_of_fits hw hv, length_leBytes v w, uintLE_leBytes hv⟩
  · rw [tlvF32, leBytes_append_four]

end Sys2Proof.Machine
end

section
/-! ## Built frames and the receive path (R117, R186, R295 to R297)

A built frame is START, the inside below, END; `Escape` writes the inside by `escByte`, so the wire frame holds no
START after its first byte and no END before its last. -/

namespace Sys2Proof.Machine

/-! ### What `BuildRaw` builds (R295) -/

/-- What stands between START and END of a built frame: declared length, CRC field, record type, fields (R117, R295). -/
def frameInside (crc code : U16) (fields : List Byte) : List Byte :=
  leBytes (8 + fields.length) 2 ++ codeBytes crc ++ codeBytes code ++ fields

/-- A built frame with the given CRC in its CRC field. -/
def frameWithCrc (crc code : U16) (fields : List Byte) : List Byte := START :: frameInside crc code fields ++ [END]

/-- The frame digested is the one with a zero CRC field. -/
theorem frameBody_eq (code : U16) (fields : List Byte) : frameBody code fields = frameWithCrc 0 code fields := rfl

section
variable {crc code : U16} {fields : List Byte}

theorem length_frameWithCrc : (frameWithCrc crc code fields).length = 8 + fields.length := by
  simp [frameWithCrc, frameInside, codeBytes]
  omega

theorem buildRaw_eq (tab : List U16) (h : fields.length ≤ 65527) :
    buildRaw tab code fields = some (frameWithCrc (crc16 tab (frameWithCrc 0 code fields)) code fields) := by
  have hlen : ¬ (frameWithCrc 0 code fields).length > MAX_RAW_FRAME := by
    rw [length_frameWithCrc]
    exact Nat.not_lt.2 (Nat.add_le_add_left h 8)
  rw [buildRaw, frameBody_eq, if_neg hlen]
  rfl

/-! ### Its checks and its parts (R207 to R211) -/

theorem zeroCrcField_frameWithCrc : zeroCrcField (frameWithCrc crc code fields) = frameWithCrc 0 code fields := rfl

theorem crcField_frameWithCrc : crcField (frameWithCrc crc code fields) = crc := Laws.u16le_codeBytes crc

theorem payload_frameWithCrc : (frameWithCrc crc code fields).drop 5 = codeBytes code ++ fields ++ [END] := rfl

/-- The declared length of a built frame is its length, which fits two bytes. -/
theorem declaredLength_frameWithCrc (h : fields.length ≤ 65527) :
    (declaredLength (frameWithCrc crc code fields)).toNat = (frameWithCrc crc code fields).length := by
  have hlen : declaredLength (frameWithCrc crc code fields) =
      u16le (BitVec.ofNat 8 (8 + fields.length)) (BitVec.ofNat 8 ((8 + fields.length) / 256)) := rfl
  rw [hlen, u16le, toNat_append_byte, BitVec.toNat_ofNat, BitVec.toNat_ofNat, length_frameWithCrc]
  omega

/-- A frame that holds the digest of itself with a zero CRC field passes the checks. -/
theorem judgeFrame_frameWithCrc {tab : List U16} (h : crc16 tab (frameWithCrc 0 code fields) = crc) :
    judgeFrame tab (frameWithCrc crc code fields) = none := by
  refine judgeFrame_pass ?_ rfl ?_
  · rw [length_frameWithCrc]
    exact Nat.le_add_right ..
  · rw [zeroCrcField_frameWithCrc, crcField_frameWithCrc, h]

theorem unescape_escape_frameWithCrc :
    unescape (escape (frameWithCrc crc code fields)) = frameWithCrc crc code fields := by
  have hfirst : (frameWithCrc crc code fields).head? = some START := rfl
  have hlast : (frameWithCrc crc code fields).getLast? = some END := List.getLast?_concat
  exact unescapeInvertsEscape _ (by rw [hfirst]; decide) fun _ => by rw [hlast]; decide

end

/-! ### Its extraction (R187, R190, 90_conflicts C3) -/

theorem extractSpec_nil (n : Nat) : extractSpec n [] = ([], []) := by
  cases n <;> simp [extractSpec]

/-- Bytes without START before a frame are discarded; the frame is cut at its first END. -/
theorem extractSpec_frame (n : Nat) {garbage frm : List Byte} (hg : START ∉ garbage) (hs : frm.head? = some START)
    (he : END ∉ frm) (rest : List Byte) :
    extractSpec (n + 1) (garbage ++ (frm ++ END :: rest)) =
      ((frm ++ [END]) :: (extractSpec n rest).1, (extractSpec n rest).2) := by
  have hskip : (garbage ++ (frm ++ END :: rest)).dropWhile (· != START) = frm ++ END :: rest := by
    rw [List.dropWhile_append_of_pos fun b hb => by simpa using ne_of_mem_of_not_mem hb hg]
    exact dropWhile_of_opened (by simp [hs])
  have hk : (frm ++ END :: rest).idxOf END = frm.length := by simp [List.idxOf_append_of_notMem he]
  have hcut : (frm ++ END :: rest).take (frm.length + 1) = frm ++ [END] := by simp [List.take_append]
  have hleft : (frm ++ END :: rest).drop (frm.length + 1) = rest := by simp [List.drop_append]
  rw [extractSpec, hskip, if_pos (by simp)]
  simp only [hk, hcut, hleft]

/-- An escaped frame is cut whole, also after bytes without START, and nothing is left. -/
theorem extractSpec_escape (n : Nat) {garbage : List Byte} (hg : START ∉ garbage) (inside : List Byte) :
    extractSpec (n + 1) (garbage ++ escape (START :: inside ++ [END])) = ([escape (START :: inside ++ [END])], []) := by
  have he : END ∉ START :: inside.flatMap escByte :=
    List.not_mem_cons_of_ne_of_not_mem (by decide) (not_mem_flatMap_escByte (by decide) (by decide) inside)
  rw [escape_cons_concat, extractSpec_frame n hg rfl he, extractSpec_nil]

/-- Settles O60: the wire frame is the escaped raw frame, which holds the digest of itself with a zero CRC field. -/
theorem builtFramesAreReceived : Obligations.BuiltFramesAreReceived := by
  intro code fields h
  refine ⟨_, congrArg (Option.map escape) (buildRaw_eq crcTable h), fun garbage hg => extractSpec_escape _ hg _, ?_⟩
  rw [unescape_escape_frameWithCrc]
  exact ⟨judgeFrame_frameWithCrc rfl, declaredLength_frameWithCrc h, payload_frameWithCrc⟩

end Sys2Proof.Machine
end

section
/-! ## The host operations that return at once (R53, R56, R85, R159, R280, R296) -/

namespace Sys2Proof.Machine

/-- With no fault the step between operations performs the queued one (R10, R58). -/
theorem step_performOp {s : State} {op : HostOp} {rest : List HostOp} (hp : s.phase = .idle)
    (hq : s.hostq = op :: rest) (h : s.faultReg = .none ∨ op.alwaysAdmitted = true) :
    step s = .next (performOp op { s with hostq := rest }) := by
  rw [step_hostOp hp hq, hostOp_performed (s := { s with hostq := rest }) h]

/-- What a register holds does not depend on the operations queued. -/
theorem readReg_withHostq (s : State) (rest : List HostOp) (reg : HostReg) :
    readReg { s with hostq := rest } reg = readReg s reg := by
  cases reg <;> rfl

theorem step_read {s : State} {reg : HostReg} {rest : List HostOp} (hp : s.phase = .idle)
    (hq : s.hostq = .read reg :: rest) :
    step s = .next { s with hostq := rest, replies := s.replies ++ [.value (readReg s reg)] } := by
  rw [step_performOp hp hq (.inr rfl), performOp, readReg_withHostq]
  rfl

/-- What `BuildFrame` answers: the frame built, or the refusal (R295, R296). -/
def builtReply : Option (List Byte) → Reply
  | some wire => .frame wire
  | none => .refused

theorem slotReads_of_readSlot {α : Type} {reg : Nat → HostReg} {view : Option α → HostVal}
    {file : DeviceModel → SlotFile α} (h : ∀ s slot, readReg s (reg slot) = readSlot s (file s.dev) slot view) :
    SlotReads reg view file := fun s slot =>
  ⟨fun hs => (h s slot).trans (readSlot_below hs _ _), fun hs => (h s slot).trans (readSlot_beyond hs _ _)⟩

section
variable {s : State} {rest : List HostOp} (hp : s.phase = .idle) (hf : s.faultReg = .none)
include hp hf

theorem step_takeOutcome (hq : s.hostq = .takeOutcome :: rest) : step s = .next { s with
    hostq := rest, evq := s.evq.tail, replies := s.replies ++ [.outcome s.evq.head?] } :=
  step_performOp hp hq (.inl hf)

variable (ht : s.crctab = crcTable) (he : s.eng ≠ .failed)
include ht he

/-- An operation that answers from the CRC table runs with the engine READY (R157). -/
theorem step_answerFromTable {op : HostOp} {reply : List U16 → Reply} (hq : s.hostq = op :: rest)
    (hop : ∀ u, performOp op u = withEngine (fun u => answer (reply u.crctab) u) u) : step s = .next { s with
      hostq := rest, eng := .ready, replies := s.replies ++ [reply crcTable] } := by
  rw [step_performOp hp hq (.inl hf), hop, withEngine_sound _ (s := { s with hostq := rest }) ht he hf, ← ht]
  rfl

theorem step_crcCompute {bytes : List Byte} (hq : s.hostq = .crcCompute bytes :: rest) : step s = .next { s with
    hostq := rest, eng := .ready, replies := s.replies ++ [.digest (crc16 crcTable bytes)] } :=
  step_answerFromTable (reply := fun tab => .digest (crc16 tab bytes)) hp hf ht he hq fun _ => rfl

theorem step_buildFrame {code : U16} {fields : List Byte} (hq : s.hostq = .buildFrame code fields :: rest) :
    step s = .next { s with
      hostq := rest, eng := .ready, replies := s.replies ++ [builtReply (buildFrame crcTable code fields)] } :=
  step_answerFromTable (reply := fun tab => builtReply (buildFrame tab code fields)) hp hf ht he hq fun _ => rfl

end

/-- Settles O51: the step lemma of each operation; a read of a register that is not per slot computes. -/
theorem hostOperationsReturn : Obligations.HostOperationsReturn := by
  refine ⟨fun s rest hp => ⟨fun reg hq => step_read hp hq, fun hf => ?_, fun hf ht he => ?_⟩,
    slotReads_of_readSlot fun _ _ => rfl, slotReads_of_readSlot fun _ _ => rfl, slotReads_of_readSlot fun _ _ => rfl,
    slotReads_of_readSlot fun _ _ => rfl, slotReads_of_readSlot fun _ _ => rfl, slotReads_of_readSlot fun _ _ => rfl,
    slotReads_of_readSlot fun _ _ => rfl, slotReads_of_readSlot fun _ _ => rfl, slotReads_of_readSlot fun _ _ => rfl,
    slotReads_of_readSlot fun _ _ => rfl, fun s => ?_⟩
  · refine ⟨fun at_ hq => step_performOp hp hq (.inl hf), fun hq => ?_⟩
    rw [step_takeOutcome hp hf hq]
    exact ⟨fun hev => by rw [hev]; rfl, fun o more hev => by rw [hev]; rfl⟩
  · refine ⟨fun bytes hq => step_crcCompute hp hf ht he hq, fun code fields wire hq hb => ?_,
      fun code fields hq hlen => ?_⟩
    · rw [step_buildFrame hp hf ht he hq, hb]
      rfl
    · have hrefused : buildFrame crcTable code fields = none := buildFrame_refused hlen
      refine ⟨hrefused, ?_⟩
      rw [step_buildFrame hp hf ht he hq, hrefused]
      rfl
  · exact ⟨rfl, rfl, rfl, rfl, rfl, rfl, rfl, rfl, rfl, rfl, rfl, rfl, rfl, rfl, rfl⟩

end Sys2Proof.Machine
end

section
/-! ## The frame of a TLV field (R321, R324) -/

namespace Sys2Proof.Machine

/-- Settles O26: a field that skips adds its log entry to the old state; any other writes only the Device Model,
the current slot, the builder and the last record. -/
theorem fieldsLeaveTheRestAlone : Obligations.FieldsLeaveTheRestAlone := by
  intro i s hfield
  obtain ⟨t, hexec, ⟨entry, rfl⟩ | hwrite⟩ := exec_field_shape hfield s
  · exact ⟨_, hexec, rfl, rfl, rfl, rfl, rfl, rfl, rfl, rfl, rfl, rfl, rfl, rfl, rfl, rfl, rfl, rfl,
      .inr ⟨rfl, rfl, entry, rfl⟩⟩
  · refine ⟨t, hexec, ?_⟩
    rw [hwrite]
    exact ⟨rfl, rfl, rfl, rfl, rfl, rfl, rfl, rfl, rfl, rfl, rfl, rfl, rfl, rfl, rfl, rfl, .inl rfl⟩

end Sys2Proof.Machine
end

section
/-! ## A direct `DecodeFrame` (R205), `Init` (R157), and the refusals of a faulted block (R58, R322) -/

namespace Sys2Proof.Machine

/-- Decoding answers the host nothing. -/
theorem decodeFrameSpec_replies (frm : List Byte) (s : State) : (decodeFrameSpec frm s).replies = s.replies := by
  rw [decodeFrameSpec_decodingShape]

theorem decodeFrameSpec_chunk (frm : List Byte) (s : State) : (decodeFrameSpec frm s).chunk = s.chunk := by
  rw [decodeFrameSpec_decodingShape]

/-- With no chunk behind the candidate the operation returns as soon as it is decoded. -/
theorem runsTo_decoded (frm : List Byte) {s : State} (hc : s.chunk = []) :
    RunsTo (beginFrame frm s) (finish .done (decodeFrameSpec frm s)) :=
  have hend : step { decodeFrameSpec frm s with phase := .scan } = .next (finish .done (decodeFrameSpec frm s)) :=
    step_scan_nil rfl ((decodeFrameSpec_chunk frm s).trans hc)
  (runsTo_decodeFrameSpec frm s).trans (RunsTo.of_step hend)

/-- A direct `DecodeFrame` begins the frame with the engine READY (R157, R205). -/
theorem step_decodeFrame {s : State} (hs : Sound s) (hp : s.phase = .idle) (hf : s.faultReg = .none) {frm : List Byte}
    {now : Rat} {rest : List HostOp} (hq : s.hostq = .decodeFrame frm now :: rest) :
    step s = .next (beginFrame frm { s with eng := .ready, hostq := rest, now := now }) := by
  rw [step_performOp hp hq (.inl hf), performOp,
    withEngine_sound (s := { s with hostq := rest }) _ hs.table hs.engine.1 hf, hs.between hp]

/-- Settles O36: the candidate is decoded with no chunk behind it. -/
theorem directDecodeFrameRuns : Obligations.DirectDecodeFrameRuns := by
  intro s frm now rest hs hp hf hq
  have hrun := runsTo_decoded frm (s := { s with eng := .ready, hostq := rest, now := now }) (hs.between hp)
  rw [finish, answer, decodeFrameSpec_replies] at hrun
  exact .cons (step_decodeFrame hs hp hf hq) hrun

/-- `Init` makes the engine READY, so the operation runs. -/
theorem withEngine_of_initEngine {op : State → State} {s t : State} (hi : initEngine s = t) (he : t.eng = .ready)
    (hf : t.faultReg = .none) : withEngine op s = op t := by
  rw [withEngine, hi, if_pos ((operable_iff t).2 ⟨he, hf⟩)]

/-- Settles O50: the operation is `initEngine` and then the answer; from UNINIT it builds the table, from READY it does
nothing. -/
theorem initMakesTheEngineReady : Obligations.InitMakesTheEngineReady := by
  refine ⟨fun s rest hp hq hf he => ?_, fun s rest hp hq hf he => ?_⟩ <;>
    rw [step_performOp hp hq (.inl hf), performOp]
  · rw [withEngine_of_initEngine (s := { s with hostq := rest }) (initEngine_uninit he) rfl hf]
    rfl
  · rw [withEngine_of_initEngine (s := { s with hostq := rest }) (initEngine_ready he) he hf]
    rfl

/-- Settles O45: no operation but `Reset` and a read is always admitted. -/
theorem faultedBlockRefuses : Obligations.FaultedBlockRefuses := by
  intro s op rest hp hq hf hreset hread
  have ha : op.alwaysAdmitted ≠ true := fun h => by
    obtain e | ⟨reg, e⟩ := op.alwaysAdmitted_iff.1 h
    · exact hreset e
    · exact hread reg e
  rw [step_hostOp hp hq, hostOp_refused (s := { s with hostq := rest }) hf (Bool.eq_false_iff.2 ha)]
  rfl

end Sys2Proof.Machine
end

section
/-! ## Bytes beyond the capacity (R198, R323) -/

namespace Sys2Proof.Machine

section
variable {s : State} (h : ¬ Room s)
include h

theorem accumulate_of_full (b : Byte) : accumulate b s = overflow s := if_neg (mt hasRoom_iff.1 h)

theorem collect_of_full (hb : s.rxbuf ≠ []) (b : Byte) : collect b s = overflow s := by
  rw [collect, if_neg hb, accumulate_of_full h]

theorem closeFrame_of_full (hb : s.rxbuf ≠ []) : closeFrame s = overflow s := by
  rw [closeFrame, if_neg hb, if_neg (mt hasRoom_iff.1 h)]

end

/-- Settles O11: each byte class overflows, and `overflow` is the state written out. -/
theorem appendBeyondCapacityIsFatal : Obligations.AppendBeyondCapacityIsFatal := by
  intro s cap hcap hlen t
  have hfull : ¬ Room s := fun hr => Nat.not_lt.2 hlen (hr cap hcap)
  exact ⟨congrArg _ (accumulate_of_full hfull _), fun hb => ⟨congrArg _ (closeFrame_of_full hfull hb),
    congrArg _ (collect_of_full hfull hb _), fun b => congrArg _ (collect_of_full hfull hb b)⟩⟩

end Sys2Proof.Machine
end

section
/-! ## What every step keeps: the parameters and the table (R31, R353), the queues (R45, R56, R57) -/

namespace Sys2Proof.Machine

/-! ### Between operations -/

/-- What a host operation other than `Reset` and the taking of an outcome keeps: the parameters, the log and the
outcomes; and `CRCTAB`, unless `Init` constructs it. -/
structure HostKeeps (s t : State) : Prop where
  params : t.params = s.params
  table : t.crctab = s.crctab ∨ t.crctab = crcTable
  logq : t.logq = s.logq
  evq : t.evq = s.evq

namespace HostKeeps

theorem refl (s : State) : HostKeeps s s := ⟨rfl, .inl rfl, rfl, rfl⟩

theorem trans {s t u : State} (h : HostKeeps s t) (h' : HostKeeps t u) : HostKeeps s u where
  params := h'.params.trans h.params
  table := h'.table.elim (fun e => e ▸ h.table) .inr
  logq := h'.logq.trans h.logq
  evq := h'.evq.trans h.evq

theorem of_answer (r : Reply) (s : State) : HostKeeps s (answer r s) := { refl s with }

theorem of_initEngine (s : State) : HostKeeps s (initEngine s) := by
  rcases initEngine_cases s with ⟨-, e⟩ | ⟨-, e⟩ <;> rw [e]
  · exact refl s
  · exact { refl s with table := .inr rfl }

theorem of_withEngine {op : State → State} (h : ∀ u, HostKeeps u (op u)) (s : State) :
    HostKeeps s (withEngine op s) := by
  rcases withEngine_cases op s with ⟨-, -, e⟩ | ⟨-, e⟩ <;> rw [e]
  · exact (of_initEngine s).trans (h _)
  · exact (of_initEngine s).trans (of_answer ..)

theorem of_performOp {op : HostOp} (hr : op ≠ .reset) (ht : op ≠ .takeOutcome) (s : State) :
    HostKeeps s (performOp op s) := by
  cases op <;> simp only [performOp]
  case reset => exact absurd rfl hr
  case takeOutcome => exact absurd rfl ht
  case init | crcCompute | buildFrame => exact of_withEngine (fun u => of_answer _ u) s
  case ingest | decodeFrame =>
    refine of_withEngine (fun u => ?_) s
    exact { refl u with }
  case noteRtcRequest => exact { refl s with }
  case read => exact of_answer _ s

end HostKeeps

/-- A host operation is the performed `Reset`, the performed taking of an outcome, or keeps the parameters and the
queues; any refused operation is of the last kind. -/
theorem hostOp_hostKeeps (op : HostOp) (s : State) :
    (op = .reset ∧ hostOp op s = answer .done (resetBlock s)) ∨
    (op = .takeOutcome ∧ hostOp op s = answer (.outcome s.evq.head?) { s with evq := s.evq.tail }) ∨
    HostKeeps s (hostOp op s) := by
  by_cases h : s.faultReg = .none ∨ op.alwaysAdmitted = true
  · rw [hostOp_performed h]
    by_cases hr : op = .reset
    · exact .inl ⟨hr, hr ▸ rfl⟩
    · by_cases ht : op = .takeOutcome
      · exact .inr (.inl ⟨ht, ht ▸ rfl⟩)
      · exact .inr (.inr (.of_performOp hr ht s))
  · rw [not_or, Bool.not_eq_true] at h
    rw [hostOp_refused h.1 h.2]
    exact .inr (.inr (.of_answer _ s))

theorem hostStep_hostKeeps {s : State} (hp : s.phase = .idle) :
    (Performs s .reset ∧ ∃ rest, hostStep s = answer .done (resetBlock { s with hostq := rest })) ∨
    (Performs s .takeOutcome ∧ ∃ rest, hostStep s =
      answer (.outcome s.evq.head?) { s with hostq := rest, evq := s.evq.tail }) ∨
    HostKeeps s (hostStep s) := by
  rcases hostStep_cases s with ⟨-, e⟩ | ⟨op, rest, hq, e⟩ <;> rw [e]
  · exact .inr (.inr (.refl s))
  · rcases hostOp_hostKeeps op { s with hostq := rest } with ⟨rfl, eo⟩ | ⟨rfl, eo⟩ | hk
    · exact .inl ⟨performs_of_head hp hq, rest, eo⟩
    · exact .inr (.inl ⟨performs_of_head hp hq, rest, eo⟩)
    · exact .inr (.inr { hk with })

/-! ### The parameters and the table -/

/-- A stream byte writes neither the parameters nor the table. -/
theorem exec_streamInstr_params_crctab {b : Byte} {s t : State} (h : exec (streamInstr b) s = .next t) :
    t.params = s.params ∧ t.crctab = s.crctab := by
  rcases exec_streamInstr_cases b s with ⟨-, -, e⟩ | ⟨-, -, e⟩ | ⟨-, -, -, e⟩ | ⟨-, -, -, e⟩ <;>
    cases e.symm.trans h <;> exact ⟨rfl, rfl⟩

/-- Inside an operation the parameters and the table are not written. -/
theorem step_params_crctab {s t : State} (h : step s = .next t) (hp : s.phase ≠ .idle) :
    t.params = s.params ∧ t.crctab = s.crctab := by
  cases hphase : s.phase with
  | idle => exact absurd hphase hp
  | scan =>
    cases hc : s.chunk with
    | nil =>
      cases (step_scan_nil hphase hc).symm.trans h
      exact ⟨rfl, rfl⟩
    | cons b rest =>
      have hbyte := exec_streamInstr_params_crctab ((step_scan_cons hphase hc).symm.trans h)
      exact hbyte
  | unescape | check | walk =>
    rw [step_decodingShape h (by simp [hphase])]
    exact ⟨rfl, rfl⟩

/-- Settles O47: inside an operation neither is written; between operations `Reset` and `Init` alone write the table,
and what they write is the constructed one. -/
theorem parametersAndTableNeverChange : Obligations.ParametersAndTableNeverChange := by
  intro s t h
  by_cases hp : s.phase = .idle
  · cases (step_idle hp).symm.trans h
    rcases hostStep_hostKeeps hp with ⟨-, rest, e⟩ | ⟨-, rest, e⟩ | hk
    · rw [e]
      exact ⟨rfl, fun _ => rfl⟩
    · rw [e]
      exact ⟨rfl, id⟩
    · exact ⟨hk.params, fun ht => hk.table.elim (·.trans ht) id⟩
  · obtain ⟨hparams, htable⟩ := step_params_crctab h hp
    exact ⟨hparams, htable.trans⟩

/-! ### The queues -/

/-- From `s` to `t` passing records, log entries and outcomes are only appended. -/
structure QueuesGrow (s t : State) : Prop where
  passing : s.dev.passing <+: t.dev.passing
  logq : s.logq <+: t.logq
  evq : s.evq <+: t.evq

namespace QueuesGrow

theorem refl (s : State) : QueuesGrow s s := ⟨List.prefix_rfl, List.prefix_rfl, List.prefix_rfl⟩

theorem of_drop (c : Cause) (r : Option U16) (tag : Option Byte) (s : State) : QueuesGrow s (drop c r tag s) :=
  { refl s with logq := List.prefix_append .. }

theorem of_copyPlain (s : State) : QueuesGrow s (copyPlain s) := by
  rcases copyPlain_cases s with ⟨-, e⟩ | ⟨_, -, e⟩ | ⟨_, _, -, -, e⟩ <;> rw [e] <;> exact { refl s with }

/-- A stream byte appends nothing, but for the log entry of an overflow (R198). -/
theorem of_exec_streamInstr {b : Byte} {s t : State} (h : exec (streamInstr b) s = .next t) : QueuesGrow s t := by
  rcases exec_streamInstr_cases b s with ⟨-, -, e⟩ | ⟨-, -, e⟩ | ⟨-, -, -, e⟩ | ⟨-, -, -, e⟩ <;>
    cases e.symm.trans h
  · exact refl s
  · exact { refl s with logq := List.prefix_append .. }
  · exact { refl s with }
  · exact { refl s with }

/-- A record type starts its walk, or is logged as unknown (R314). -/
theorem of_exec_frameInstrOfCode {code : U16} {s t : State} (h : exec (frameInstrOfCode code) s = .next t) :
    QueuesGrow s t := by
  rcases exec_frameInstrOfCode_cases code s with ⟨r, e⟩ | e <;> cases e.symm.trans h
  · exact { refl s with }
  · exact { refl s with logq := List.prefix_append .. }

end QueuesGrow

theorem FieldShape.logq_prefix {s t : State} (h : FieldShape s t) : s.logq <+: t.logq := by
  rcases h with ⟨e, rfl⟩ | h
  · exact List.prefix_append ..
  · rw [h]

/-- A Passing field appends the committed record to `PASSING`, or leaves it as it is (R263). -/
theorem exec_passingField_prefix {i : Instr} {tag : Byte} {val : List Byte} (hi : i.field = some (.passing, tag, val))
    {s t : State} (h : exec i s = .next t) : s.dev.passing <+: t.dev.passing := by
  cases i <;> cases hi <;> cases h
  case passingRtc =>
    exact withUInt_ind (Q := fun t => s.dev.passing <+: t.dev.passing) (fun _ _ => List.prefix_append ..)
      List.prefix_rfl
  case passingSlot | passingDecoder | passingNumber | passingPeak | passingFlags =>
    exact withUInt_ind (Q := fun t => s.dev.passing <+: t.dev.passing) (fun _ _ => List.prefix_rfl) List.prefix_rfl
  case passingUnknown => exact List.prefix_rfl

/-- No other record's field writes `PASSING`. -/
theorem exec_field_passing_prefix {i : Instr} {r : RecordType} {tag : Byte} {val : List Byte}
    (hi : i.field = some (r, tag, val)) {s t : State} (h : exec i s = .next t) :
    s.dev.passing <+: t.dev.passing := by
  by_cases hr : r = .passing
  · exact exec_passingField_prefix (hr ▸ hi) h
  · rw [((KeepsOthers.of_exec_field hi h).passing hr).1]

namespace QueuesGrow

/-- A field appends at most its log entry or its passing record. -/
theorem of_exec_fieldInstr {r : RecordType} {tag : Byte} {val : List Byte} {s t : State}
    (h : exec (fieldInstr r tag val) s = .next t) : QueuesGrow s t := by
  have hfield := fieldInstr_field r tag val
  obtain ⟨u, hu, hshape⟩ := exec_field_shape (i := fieldInstr r tag val) (by rw [hfield]; rfl) s
  cases hu.symm.trans h
  exact ⟨exec_field_passing_prefix hfield h, hshape.logq_prefix, hshape.evq ▸ List.prefix_rfl⟩

end QueuesGrow

/-- Inside an operation the queues only grow. -/
theorem step_queuesGrow {s t : State} (h : step s = .next t) (hp : s.phase ≠ .idle) : QueuesGrow s t := by
  rcases step_cases h with ⟨hi, -⟩ | ⟨-, -, rfl⟩ | ⟨_, _, -, -, he⟩ | ⟨_, _, -, -, rfl⟩ | ⟨-, -, rfl⟩ | ⟨_, -, -, rfl⟩ |
    ⟨-, -, he⟩ | ⟨-, -, rfl⟩ | ⟨_, _, _, -, -, -, -, rfl⟩ | ⟨_, _, _, _, -, -, -, -, -, he⟩
  · exact absurd hi hp
  · exact { QueuesGrow.refl s with }
  · exact { QueuesGrow.of_exec_streamInstr he with }
  · exact { QueuesGrow.refl s with }
  · exact .of_copyPlain s
  · exact .of_drop ..
  · exact { QueuesGrow.of_exec_frameInstrOfCode he with }
  · exact { QueuesGrow.refl s with evq := List.prefix_append .. }
  · exact .of_drop ..
  · exact { QueuesGrow.of_exec_fieldInstr he with }

/-- A request note writes a register other than `PASSING`, and no operation but `Reset` writes more (R53). -/
theorem hostStep_passing {s : State} (hp : s.phase = .idle) (hr : ¬ Performs s .reset) :
    (hostStep s).dev.passing = s.dev.passing := by
  rcases hostStep_dev hp hr with hd | ⟨_, -, hd⟩ <;> rw [hd]

/-- Settles O43: inside an operation the queues grow; between operations the taking of an outcome alone writes one. -/
theorem queuesOnlyGrow : Obligations.QueuesOnlyGrow := by
  intro s t h hr
  by_cases hp : s.phase = .idle
  · cases (step_idle hp).symm.trans h
    refine ⟨hostStep_passing hp hr ▸ List.prefix_rfl, ?_⟩
    rcases hostStep_hostKeeps hp with ⟨hreset, -⟩ | ⟨htake, rest, e⟩ | hk
    · exact absurd hreset hr
    · rw [e]
      exact ⟨List.prefix_rfl, .inr ⟨htake, rfl⟩⟩
    · exact ⟨hk.logq ▸ List.prefix_rfl, .inl (hk.evq ▸ List.prefix_rfl)⟩
  · have hg := step_queuesGrow h hp
    exact ⟨hg.passing, hg.logq, .inl hg.evq⟩

end Sys2Proof.Machine
end
